-- ==== Sys2Proof/Word.lean ====
section
/-! DEFINITION. The words of the DES core: bytes, 32-bit registers, 64-bit blocks. A `BitVec n` read from its most
significant bit down is the spec's sequence of `n` BitUnits (00_scope.md R7, R9 `seq32`): `getMsbD i` is sequence
index `i`, and `++` is concatenation. -/

namespace Sys2Proof

/-- A byte (20_memory.md R60). -/
abbrev Byte := BitVec 8

/-- A register word: every register is 32 bits wide (10_state.md R22). -/
abbrev Word := BitVec 32

/-- A 64-bit block or master key (00_scope.md R6). -/
abbrev Block := BitVec 64

/-- A round key (00_scope.md R6, R12). -/
abbrev RoundKey := BitVec 48

end Sys2Proof
end

