-- ==== Sys2Proof/Config.lean ====
section
/-! DEFINITION. The parameters of a build of the core (00_scope.md R2, R6), as types whose values a model is given, and
the one parameter that is left without a value. -/

namespace Sys2Proof

/-- The key-schedule variant `KS_MODE` of a build (00_scope.md R2, 90_conflicts.md C1): `doc` is the source's
schedule as written, `fips46` the standard one. -/
inductive KsMode where
  | doc
  | fips46
  deriving DecidableEq, Repr

/-- A shift schedule: sixteen cumulative rotation amounts, one per round (42_key_schedule.md R142). An amount is at most
28, the contract of `rotateLeft28`; "schedule values are 1..28" (40_bit_utilities.md R106, R107, log 19). -/
abbrev ShiftSchedule := Vector (Fin 29) 16

/-- The parameters of a build: `KS_MODE` and `SHIFT_FWD` (00_scope.md R6, 93_implementation_defined.md I7, I9). A build
rides in `State.build`, so that statements over all states cover every build (log 3, 19). -/
structure Build where
  /-- `KS_MODE` (00_scope.md R2). -/
  ks : KsMode
  /-- `SHIFT_FWD`, the encryption order; `SHIFT_REV` is derived from it (42_key_schedule.md R142). -/
  shiftFwd : ShiftSchedule
  deriving DecidableEq, Repr

/-- The mode of the build that `State.reset` is of: `DOC` is the default (00_scope.md R2, R6). -/
def Config.ksMode : KsMode := .doc

/-- The host's padding byte `PAD_BYTE`: OPEN, no source gives it, so it has no body here (46_host_orchestrator.md
R231, 92_eei_decisions.md D30, log 14). -/
opaque Config.padByte : Byte

end Sys2Proof
end

