-- ==== Sys2Proof/Syntax.lean ====
section
/-! DEFINITION. The instructions: one constructor for each row of spec/opcode_table.json (CMD words and BUS
transactions, 30_encoding.md R80), and the two formats they are encoded in. -/

namespace Sys2Proof

/-- The registers of the window (10_state.md R22). -/
inductive RegName where
  | cmd | status | key0 | key1 | keylen | din0 | din1 | dout0 | dout1 | mk0 | mk1 | config
  deriving DecidableEq, Repr

/-- One constructor per row of the opcode table. A command has no operand (30_encoding.md R85), but an illegal word
keeps the bits that made it one. A write carries WDATA. A read carries nothing: its WDATA is ignored (R80, log 10). -/
inductive Instr where
  -- format CMD (30_encoding.md R81 to R83)
  | nop
  | ldkey
  | enc
  | dec
  | clrerr
  /-- OP = 5, reserved; `rsvd` is CMD[31:3] (R82). -/
  | illegalOp5 (rsvd : BitVec 29)
  /-- OP = 6, reserved (R82). -/
  | illegalOp6 (rsvd : BitVec 29)
  /-- OP = 7, reserved (R82). -/
  | illegalOp7 (rsvd : BitVec 29)
  /-- The fallback row: a legal OP with a bit of CMD[31:3] set (R83, log 9). -/
  | illegalRsvd (rsvd : BitVec 29) (op : BitVec 3)
  -- format BUS (30_encoding.md R80, R84)
  | wrCmd (wdata : Word)
  | rdCmd
  | wrStatus (wdata : Word)
  | rdStatus
  | wrKey0 (wdata : Word)
  | rdKey0
  | wrKey1 (wdata : Word)
  | rdKey1
  | wrKeylen (wdata : Word)
  | rdKeylen
  | wrDin0 (wdata : Word)
  | rdDin0
  | wrDin1 (wdata : Word)
  | rdDin1
  | wrDout0 (wdata : Word)
  | rdDout0
  | wrDout1 (wdata : Word)
  | rdDout1
  | wrMk0 (wdata : Word)
  | rdMk0
  | wrMk1 (wdata : Word)
  | rdMk1
  | wrConfig (wdata : Word)
  | rdConfig
  /-- A write to a misaligned or reserved offset (20_memory.md R64, R65). -/
  | wrOther (addr : BitVec 8) (wdata : Word)
  /-- A read of a misaligned or reserved offset (20_memory.md R64, R65). -/
  | rdOther (addr : BitVec 8)
  deriving DecidableEq, Repr

/-- An encoded instruction in one of the two formats of 30_encoding.md R80. -/
inductive Frame where
  /-- A 32-bit command word: the WDATA of a write with ADDR = 0x00. -/
  | cmd (w : Word)
  /-- A 41-bit transaction: WE, ADDR, WDATA. -/
  | bus (t : BitVec 41)
  deriving DecidableEq, Repr

end Sys2Proof
end

