-- ==== Sys2Proof/WellFormed.lean ====
section
/-! DEFINITION. Which instructions are a decoding of some word: the operands of the two fallback forms must not name
what an earlier row of the table takes (30_encoding.md R84). -/

namespace Sys2Proof

/-- The offset has a register behind it: aligned and below 0x30 (20_memory.md R62, R64, R65). -/
def offsetSelects (addr : BitVec 8) : Bool :=
  addr.extractLsb' 0 2 == 0 && decide (addr.toNat < 0x30)

/-- The instruction is what some encoded word decodes to. -/
def Instr.wellFormed : Instr → Bool
  | .illegalRsvd rsvd op => rsvd != 0 && decide (op.toNat < 5)
  | .wrOther addr _ | .rdOther addr => !offsetSelects addr
  | .nop | .ldkey | .enc | .dec | .clrerr | .illegalOp5 _ | .illegalOp6 _ | .illegalOp7 _
  | .wrCmd _ | .rdCmd | .wrStatus _ | .rdStatus | .wrKey0 _ | .rdKey0 | .wrKey1 _ | .rdKey1
  | .wrKeylen _ | .rdKeylen | .wrDin0 _ | .rdDin0 | .wrDin1 _ | .rdDin1 | .wrDout0 _ | .rdDout0
  | .wrDout1 _ | .rdDout1 | .wrMk0 _ | .rdMk0 | .wrMk1 _ | .rdMk1 | .wrConfig _ | .rdConfig => true

end Sys2Proof
end

