-- ==== Sys2Proof/Decode.lean ====
section
/-! DEFINITION. The decoder, total on both formats (30_encoding.md R84) and on byte strings (rejecting by name), and
after it the encoder, written from the same tables. -/

namespace Sys2Proof

/-- The byte offset of a register, `off(reg)` (10_state.md R22). -/
def RegName.offset : RegName → BitVec 8
  | .cmd => 0x00
  | .status => 0x04
  | .key0 => 0x08
  | .key1 => 0x0C
  | .keylen => 0x10
  | .din0 => 0x14
  | .din1 => 0x18
  | .dout0 => 0x1C
  | .dout1 => 0x20
  | .mk0 => 0x24
  | .mk1 => 0x28
  | .config => 0x2C

/-- The register an offset selects: none where it is misaligned or reserved (20_memory.md R62, R64, R65). -/
def selectRegister (addr : BitVec 8) : Option RegName :=
  if addr.extractLsb' 0 2 ≠ 0 then none
  else if addr = 0x00 then some .cmd
  else if addr = 0x04 then some .status
  else if addr = 0x08 then some .key0
  else if addr = 0x0C then some .key1
  else if addr = 0x10 then some .keylen
  else if addr = 0x14 then some .din0
  else if addr = 0x18 then some .din1
  else if addr = 0x1C then some .dout0
  else if addr = 0x20 then some .dout1
  else if addr = 0x24 then some .mk0
  else if addr = 0x28 then some .mk1
  else if addr = 0x2C then some .config
  else none

/-- A CMD word (30_encoding.md R81 to R83). A word with a reserved OP is the row of that OP whatever its reserved
bits; any other word with a reserved bit set is the fallback row (log 9). -/
def decodeCommand (w : Word) : Instr :=
  let op := w.extractLsb' 0 3
  let rsvd := w.extractLsb' 3 29
  if op = 5 then .illegalOp5 rsvd
  else if op = 6 then .illegalOp6 rsvd
  else if op = 7 then .illegalOp7 rsvd
  else if rsvd ≠ 0 then .illegalRsvd rsvd op
  else if op = 0 then .nop
  else if op = 1 then .ldkey
  else if op = 2 then .enc
  else if op = 3 then .dec
  else .clrerr

/-- A transaction with WE = 1 (30_encoding.md R84). -/
def decodeWrite (addr : BitVec 8) (wdata : Word) : Instr :=
  match selectRegister addr with
  | some .cmd => .wrCmd wdata
  | some .status => .wrStatus wdata
  | some .key0 => .wrKey0 wdata
  | some .key1 => .wrKey1 wdata
  | some .keylen => .wrKeylen wdata
  | some .din0 => .wrDin0 wdata
  | some .din1 => .wrDin1 wdata
  | some .dout0 => .wrDout0 wdata
  | some .dout1 => .wrDout1 wdata
  | some .mk0 => .wrMk0 wdata
  | some .mk1 => .wrMk1 wdata
  | some .config => .wrConfig wdata
  | none => .wrOther addr wdata

/-- A transaction with WE = 0 (30_encoding.md R84). -/
def decodeRead (addr : BitVec 8) : Instr :=
  match selectRegister addr with
  | some .cmd => .rdCmd
  | some .status => .rdStatus
  | some .key0 => .rdKey0
  | some .key1 => .rdKey1
  | some .keylen => .rdKeylen
  | some .din0 => .rdDin0
  | some .din1 => .rdDin1
  | some .dout0 => .rdDout0
  | some .dout1 => .rdDout1
  | some .mk0 => .rdMk0
  | some .mk1 => .rdMk1
  | some .config => .rdConfig
  | none => .rdOther addr

/-- WE of a transaction, bit [40] (30_encoding.md R80). -/
def busWe (t : BitVec 41) : Bool := t.getLsbD 40

/-- ADDR of a transaction, bits [39:32]. -/
def busAddr (t : BitVec 41) : BitVec 8 := t.extractLsb' 32 8

/-- WDATA of a transaction, bits [31:0]. -/
def busWdata (t : BitVec 41) : Word := t.extractLsb' 0 32

/-- A BUS transaction (30_encoding.md R80, R84). -/
def decodeBus (t : BitVec 41) : Instr :=
  if busWe t then decodeWrite (busAddr t) (busWdata t) else decodeRead (busAddr t)

/-- The decoder: total on both formats (30_encoding.md R84). -/
def decode : Frame → Instr
  | .cmd w => decodeCommand w
  | .bus t => decodeBus t

/-! ### Byte strings -/

/-- Why a byte string is no encoded instruction. -/
inductive DecodeError where
  /-- Neither 4 bytes (CMD) nor 6 bytes (BUS). -/
  | length (n : Nat)
  /-- A 6-byte string with one of its seven bits above WE set. -/
  | padding
  deriving DecidableEq, Repr

/-- The number a byte string is, first byte most significant (20_memory.md R60). -/
def natOfBytes (bytes : List Byte) : Nat :=
  bytes.foldl (fun acc b => 256 * acc + b.toNat) 0

/-- The `n` bytes of a number, first byte most significant (20_memory.md R60). -/
def bytesOfNat (n v : Nat) : List Byte :=
  (List.range n).map fun k => BitVec.ofNat 8 (v >>> (8 * (n - 1 - k)))

/-- Four bytes are a CMD word, six a BUS transaction under seven zero bits (log 8); anything else is rejected by
name. -/
def frameOfBytes (bytes : List Byte) : Except DecodeError Frame :=
  if bytes.length = 4 then .ok (.cmd (BitVec.ofNat 32 (natOfBytes bytes)))
  else if bytes.length = 6 then
    if natOfBytes bytes < 2 ^ 41 then .ok (.bus (BitVec.ofNat 41 (natOfBytes bytes)))
    else .error .padding
  else .error (.length bytes.length)

/-- The decoder on bytes: total, rejecting by name. -/
def decodeBytes (bytes : List Byte) : Except DecodeError Instr :=
  (frameOfBytes bytes).map decode

/-- How many bytes the hardware's formats give a table row of `nbits` bits: 4 for CMD, 6 for the 41 bits of BUS. -/
def frameBytes (nbits : Nat) : Nat :=
  if nbits ≤ 32 then 4 else if nbits ≤ 48 then 6 else nbits / 8

/-- The instruction the decoder reads from the table's word `w` of `nbits` bits: its bytes, first most significant,
given to `decodeBytes`; none where the word does not fit or the decoder rejects it. -/
def decodeTableWord (nbits w : Nat) : Option Instr :=
  if w < 2 ^ (8 * frameBytes nbits) then
    match decodeBytes (bytesOfNat (frameBytes nbits) w) with
    | .ok i => some i
    | .error _ => none
  else none

/-! ### The encoder -/

/-- WE = 1, the register's offset, WDATA (30_encoding.md R80, R88). -/
def encodeWrite (addr : BitVec 8) (wdata : Word) : Frame := .bus (1#1 ++ addr ++ wdata)

/-- WE = 0, the register's offset; WDATA is ignored and written as 0 (30_encoding.md R80, R88, log 10). -/
def encodeRead (addr : BitVec 8) : Frame := .bus (0#1 ++ addr ++ (0 : Word))

/-- The words of an instruction (30_encoding.md R80 to R83, R88). -/
def encode : Instr → Frame
  | .nop => .cmd 0x00000000
  | .ldkey => .cmd 0x00000001
  | .enc => .cmd 0x00000002
  | .dec => .cmd 0x00000003
  | .clrerr => .cmd 0x00000004
  | .illegalOp5 rsvd => .cmd (rsvd ++ 5#3)
  | .illegalOp6 rsvd => .cmd (rsvd ++ 6#3)
  | .illegalOp7 rsvd => .cmd (rsvd ++ 7#3)
  | .illegalRsvd rsvd op => .cmd (rsvd ++ op)
  | .wrCmd w => encodeWrite RegName.cmd.offset w
  | .rdCmd => encodeRead RegName.cmd.offset
  | .wrStatus w => encodeWrite RegName.status.offset w
  | .rdStatus => encodeRead RegName.status.offset
  | .wrKey0 w => encodeWrite RegName.key0.offset w
  | .rdKey0 => encodeRead RegName.key0.offset
  | .wrKey1 w => encodeWrite RegName.key1.offset w
  | .rdKey1 => encodeRead RegName.key1.offset
  | .wrKeylen w => encodeWrite RegName.keylen.offset w
  | .rdKeylen => encodeRead RegName.keylen.offset
  | .wrDin0 w => encodeWrite RegName.din0.offset w
  | .rdDin0 => encodeRead RegName.din0.offset
  | .wrDin1 w => encodeWrite RegName.din1.offset w
  | .rdDin1 => encodeRead RegName.din1.offset
  | .wrDout0 w => encodeWrite RegName.dout0.offset w
  | .rdDout0 => encodeRead RegName.dout0.offset
  | .wrDout1 w => encodeWrite RegName.dout1.offset w
  | .rdDout1 => encodeRead RegName.dout1.offset
  | .wrMk0 w => encodeWrite RegName.mk0.offset w
  | .rdMk0 => encodeRead RegName.mk0.offset
  | .wrMk1 w => encodeWrite RegName.mk1.offset w
  | .rdMk1 => encodeRead RegName.mk1.offset
  | .wrConfig w => encodeWrite RegName.config.offset w
  | .rdConfig => encodeRead RegName.config.offset
  | .wrOther addr w => encodeWrite addr w
  | .rdOther addr => encodeRead addr

/-- The bytes of a frame, as `frameOfBytes` reads them (log 8). -/
def Frame.toBytes : Frame → List Byte
  | .cmd w => bytesOfNat 4 w.toNat
  | .bus t => bytesOfNat 6 t.toNat

end Sys2Proof
end

