-- ==== Sys2Proof/Machine/BitSeq.lean ====
section
/-! DEFINITION. The bit-sequence utilities as 40_bit_utilities.md words them (R100 to R107), on sequences of BitUnits
with index 0 first, a contract violation refused (`none`; 93_implementation_defined.md I5, log 12); and the two
conversions between sequences and words (00_scope.md R7, R9). -/

namespace Sys2Proof.Machine

/-- "one logical bit as a 0/1 value" (00_scope.md R7). -/
abbrev BitUnit := Bool

/-- A sequence of BitUnits, index 0 first (00_scope.md R7). -/
abbrev BitSeq := List BitUnit

/-- `zeros(n)` (00_scope.md R9). -/
def zeros (n : Nat) : BitSeq := List.replicate n false

/-- A sequence of another length than a function takes is a contract violation, refused (60_exceptions.md R251,
93_implementation_defined.md I5). -/
def requireLength (n : Nat) (s : BitSeq) : Option Unit := if s.length = n then some () else none

/-- The sequence of a word, most significant bit first: `seq32` at width 32 (00_scope.md R9). -/
def seqOf {n : Nat} (w : BitVec n) : BitSeq := (List.range n).map w.getMsbD

/-- `bitsToNumber` (40_bit_utilities.md R102). -/
def bitsToNumber (s : BitSeq) : Nat := s.foldl (fun v b => 2 * v + b.toNat) 0

/-- The word of a sequence, `word32` at width 32 (00_scope.md R9): the inverse of `seqOf` on sequences of length
`n`. -/
def wordOf (n : Nat) (s : BitSeq) : BitVec n := BitVec.ofNat n (bitsToNumber s)

/-- `numberToBits` (40_bit_utilities.md R103): eight BitUnits, MSB first. -/
def numberToBits (n : Nat) : Option BitSeq :=
  if n ≤ 255 then some ((List.range 8).map fun j => n.testBit (7 - j)) else none

/-- `packBits` (40_bit_utilities.md R100): a length that is no multiple of 8 is refused. -/
def packBits : BitSeq → Option (List Byte)
  | [] => some []
  | b0 :: b1 :: b2 :: b3 :: b4 :: b5 :: b6 :: b7 :: rest =>
    (packBits rest).map (wordOf 8 [b0, b1, b2, b3, b4, b5, b6, b7] :: ·)
  | _ => none

/-- `unpackBits` (40_bit_utilities.md R101). -/
def unpackBits (bytes : List Byte) : BitSeq := bytes.flatMap seqOf

/-- Element-wise XOR of two sequences of length `n`; other lengths are refused. -/
def xorSeq (n : Nat) (a b : BitSeq) : Option BitSeq :=
  if a.length = n ∧ b.length = n then some (List.zipWith (· ^^ ·) a b) else none

/-- `xor32` (40_bit_utilities.md R104). -/
def xor32 (a b : BitSeq) : Option BitSeq := xorSeq 32 a b

/-- `xor48` (40_bit_utilities.md R105, 90_conflicts.md C5). -/
def xor48 (a b : BitSeq) : Option BitSeq := xorSeq 48 a b

/-- Cyclic left rotation of a sequence of length `len` by `0 ≤ n ≤ len`, toward index 0. -/
def rotateLeftSeq (len : Nat) (s : BitSeq) (n : Nat) : Option BitSeq :=
  if s.length = len ∧ n ≤ len then some ((List.range len).map fun j => s.getD ((j + n) % len) false) else none

/-- `rotateLeft64` (40_bit_utilities.md R106). -/
def rotateLeft64 (s : BitSeq) (n : Nat) : Option BitSeq := rotateLeftSeq 64 s n

/-- `rotateLeft28` (40_bit_utilities.md R107). -/
def rotateLeft28 (s : BitSeq) (n : Nat) : Option BitSeq := rotateLeftSeq 28 s n

/-- `applyTable` (41_permutation_engine.md R120): an entry outside `1..len(source)` is refused. -/
def applyTable (table : List Nat) (source : BitSeq) : Option BitSeq :=
  if table.all fun p => decide (1 ≤ p ∧ p ≤ source.length) then
    some (table.map fun p => source.getD (p - 1) false)
  else none

end Sys2Proof.Machine
end

