-- ==== Sys2Proof/Machine/State.lean ====
section
/-! DEFINITION. The state of the core (10_state.md), the outside world as plain data beside it, the reasons a step can
stop, and reset. The core has no memory and no program counter (10_state.md R20, 20_memory.md R61, log 16). -/

namespace Sys2Proof.Machine

/-- STATUS.DIR: 0 encrypt (forward), 1 decrypt (reverse) (10_state.md R24, R33). -/
inductive Direction where
  | forward
  | reverse
  deriving DecidableEq, Repr

/-- What happens next at the core's boundary: host accesses, the engine's turn, the reset input. The spec lets these
come in any order (20_memory.md R69, 44_block_core.md R186), so a state lists them (log 1). -/
inductive Input where
  /-- The host performs one bus transaction (30_encoding.md R80). -/
  | bus (t : BitVec 41)
  /-- The host issues one command word: `WR CMD, w` (30_encoding.md R88, R89, log 7). -/
  | cmd (w : Word)
  /-- The engine takes its step, if it has one (44_block_core.md R186, log 5). -/
  | core
  /-- One clock cycle of the reference timing with `rst = 0`: at most one transaction, and the engine's step if BUSY
  was 1 at the start of the cycle (70_reset_and_hazards.md R278). -/
  | cycle (access : Option (BitVec 41))
  /-- One clock cycle with `rst = 1`, whatever the host does in it (70_reset_and_hazards.md R270). -/
  | reset (access : Option (BitVec 41))
  /-- The host's loop POLL (30_encoding.md R89); while BUSY = 1, `gap + 1` engine turns pass before the next read
  (log 13). -/
  | poll (gap : Nat)
  deriving DecidableEq, Repr

/-- The architectural state, every register under its own name, then the outside world. -/
structure State where
  /-- KEY0: key bytes 0 to 3 (10_state.md R25). -/
  key0 : Word
  /-- KEY1: key bytes 4 to 7 (10_state.md R25). -/
  key1 : Word
  /-- KEYLEN[7:0]; bits [31:8] are reserved and read 0 (10_state.md R26). -/
  keylen : BitVec 8
  /-- DIN0: input block bytes 0 to 3 (10_state.md R27). -/
  din0 : Word
  /-- DIN1: input block bytes 4 to 7 (10_state.md R27). -/
  din1 : Word
  /-- DOUT0: result bytes 0 to 3 (10_state.md R28). -/
  dout0 : Word
  /-- DOUT1: result bytes 4 to 7 (10_state.md R28). -/
  dout1 : Word
  /-- MK, the master key; MK0 and MK1 are its halves (10_state.md R29, R31). -/
  masterKey : Block
  /-- L, the left half of the block in flight (10_state.md R32). -/
  l : Word
  /-- R, the right half of the block in flight (10_state.md R32). -/
  r : Word
  /-- STATUS[0] BUSY (10_state.md R24). -/
  busy : Bool
  /-- STATUS[1] DONE (10_state.md R24). -/
  done : Bool
  /-- STATUS[2] KEY_VALID (10_state.md R24). -/
  keyValid : Bool
  /-- STATUS[3] ERR_EMPTY_KEY (10_state.md R24). -/
  errEmptyKey : Bool
  /-- STATUS[4] ERR_NO_KEY (10_state.md R24). -/
  errNoKey : Bool
  /-- STATUS[5] ERR_BUSY (10_state.md R24). -/
  errBusy : Bool
  /-- STATUS[6] ERR_ILLEGAL (10_state.md R24). -/
  errIllegal : Bool
  /-- STATUS[7] DIR (10_state.md R24). -/
  dir : Direction
  /-- STATUS[12:8] ROUND (10_state.md R24, R33). -/
  round : BitVec 5
  /-- The parameters of the build, hardwired: CONFIG.KS shows `KS_MODE`, the round keys are made with `SHIFT_FWD`; no
  step writes them (10_state.md R20, R30, 00_scope.md R6, log 3, 19). -/
  build : Build
  /-- The model's own: what the outside does next, first at the head (log 1). -/
  inputs : List Input
  /-- The model's own: the values RDATA that reads have returned, newest first (30_encoding.md R80, log 2). -/
  responses : List Word
  deriving DecidableEq, Repr

/-- Why the machine stops. -/
inductive Fault where
  /-- Raised by the engine's round step alone, where BUSY = 1 and ROUND is above 15: R24 says this never appears and
  no rule gives it a meaning (log 6). Safe: no run from reset meets it. -/
  | roundOutOfRange (round : BitVec 5)
  deriving DecidableEq, Repr

/-- Why an instruction has no meaning. -/
inductive Refusal where
  /-- Raised by `exec` alone, for an instruction without a meaning yet; no arm does. Safe. -/
  | notModelled (mnemonic : String)
  deriving DecidableEq, Repr

/-- What a step, or an instruction, answers. -/
abbrev StepResult := Host.Outcome State Fault Refusal

/-- The reset state of a build (10_state.md R35), with nothing waiting at the boundary (log 1, 2). -/
def State.resetFor (build : Build) : State where
  key0 := 0
  key1 := 0
  keylen := 0
  din0 := 0
  din1 := 0
  dout0 := 0
  dout1 := 0
  masterKey := 0
  l := 0
  r := 0
  busy := false
  done := false
  keyValid := false
  errEmptyKey := false
  errNoKey := false
  errBusy := false
  errIllegal := false
  dir := .forward
  round := 0
  build := build
  inputs := []
  responses := []

/-- The machine right after reset, in the default build (10_state.md R35, 00_scope.md R6, log 3, 19). -/
def State.reset : State := State.resetFor (defaultBuild Config.ksMode)

end Sys2Proof.Machine
end

