-- ==== Sys2Proof/Machine/KeySchedule.lean ====
section
/-! DEFINITION. The key schedule (42_key_schedule.md). `seq…` functions are on BitUnit sequences, as the rules word
them; the others are on fixed widths and are what the machine runs. -/

namespace Sys2Proof.Machine

/-- A fixed table applied to a word: `destination[i] = source[table[i]-1]` (41_permutation_engine.md R120) for a table
of `m` entries, all in range (they are: `Laws/Datapath.lean`). -/
def permute (m : Nat) (table : List Nat) {n : Nat} (source : BitVec n) : BitVec m :=
  wordOf m (table.map fun p => source.getMsbD (p - 1))

/-- The parity BitUnit of a 7-bit group: 1 where the count of ones is even (42_key_schedule.md R140, R141). -/
def parityUnit (grp : BitSeq) : BitUnit := decide (grp.count true % 2 = 0)

/-- The first 56 BitUnits of the key bytes, zero-extended if short (42_key_schedule.md R140). -/
def keyContent (keyBytes : List Byte) : BitSeq :=
  let bits := unpackBits keyBytes
  if 56 ≤ bits.length then bits.take 56 else bits ++ zeros (56 - bits.length)

/-- Group `g` of seven content BitUnits, `c[7g .. 7g+6]`. -/
def keyGroup (c : BitSeq) (g : Nat) : BitSeq := (c.drop (7 * g)).take 7

/-- `deriveMasterKey` as a sequence (42_key_schedule.md R140). -/
def seqMasterKey (keyBytes : List Byte) : BitSeq :=
  (List.range 8).flatMap fun g =>
    keyGroup (keyContent keyBytes) g ++ [parityUnit (keyGroup (keyContent keyBytes) g)]

/-- `deriveMasterKey` (42_key_schedule.md R140), as the register MK holds it. -/
def deriveMasterKey (keyBytes : List Byte) : Block := wordOf 64 (seqMasterKey keyBytes)

/-- `SHIFT_REV`, the decryption order: `SHIFT_REV[i] = SHIFT_FWD[15 - i]` (42_key_schedule.md R142). -/
def shiftRev (fwd : ShiftSchedule) : ShiftSchedule :=
  #v[fwd[15], fwd[14], fwd[13], fwd[12], fwd[11], fwd[10], fwd[9], fwd[8],
     fwd[7], fwd[6], fwd[5], fwd[4], fwd[3], fwd[2], fwd[1], fwd[0]]

/-- `scheduleFor` of a direction, from the build's `SHIFT_FWD` (42_key_schedule.md R145). -/
def scheduleFor (fwd : ShiftSchedule) : Direction → ShiftSchedule
  | .forward => fwd
  | .reverse => shiftRev fwd

/-- `deriveRoundKey` on sequences, both variants (42_key_schedule.md R143, R144). In DOC the D half of the unrotated
key is computed and not used. A master key of another length than 64 is refused. -/
def seqRoundKey (ks : KsMode) (masterKey : BitSeq) (shiftSchedule : ShiftSchedule) (i : Fin 16) : Option BitSeq := do
  requireLength 64 masterKey
  match ks with
  | .doc => do
    let c ← applyTable tablePC1C masterKey
    let _d0 ← applyTable tablePC1D masterKey
    let rot ← rotateLeft64 masterKey shiftSchedule[i].val
    let d ← applyTable tablePC1D rot
    applyTable tablePC2 (c ++ d ++ zeros 8)
  | .fips46 => do
    let c ← applyTable tablePC1C masterKey
    let d ← applyTable tablePC1D masterKey
    let c' ← rotateLeft28 c shiftSchedule[i].val
    let d' ← rotateLeft28 d shiftSchedule[i].val
    applyTable tablePC2 (c' ++ d' ++ zeros 8)

/-- The 64-bit round buffer `C ++ D ++ zeros(8)` (42_key_schedule.md R143, R144, R147). -/
def roundBuffer (ks : KsMode) (masterKey : Block) (amount : Nat) : BitVec 64 :=
  match ks with
  | .doc => permute 28 tablePC1C masterKey ++ permute 28 tablePC1D (masterKey.rotateLeft amount) ++ (0 : BitVec 8)
  | .fips46 =>
    (permute 28 tablePC1C masterKey).rotateLeft amount ++ (permute 28 tablePC1D masterKey).rotateLeft amount
      ++ (0 : BitVec 8)

/-- `deriveRoundKey` (42_key_schedule.md R143 for DOC, R144 for FIPS46). -/
def deriveRoundKey (ks : KsMode) (masterKey : Block) (shiftSchedule : ShiftSchedule) (i : Fin 16) : RoundKey :=
  permute 48 tablePC2 (roundBuffer ks masterKey shiftSchedule[i].val)

end Sys2Proof.Machine
end

