-- ==== Sys2Proof/Machine/Feistel.lean ====
section
/-! DEFINITION. The Feistel round function (43_feistel.md R168, R169), on sequences (`seq…`) as the rules word it and
on fixed widths as the machine runs it. -/

namespace Sys2Proof.Machine

/-- `S(g+1)[row][col]`. -/
def sboxEntry (g : Fin 8) (row col : Nat) : Nat := ((tableS g).getD row []).getD col 0

/-- `sbox` on sequences (43_feistel.md R168): row from the two outer units, column from the four inner ones, the low
four of the eight units `numberToBits` gives (90_conflicts.md C3); another length than six is refused. -/
def seqSbox (g : Fin 8) : BitSeq → Option BitSeq
  | [b0, b1, b2, b3, b4, b5] =>
    (numberToBits (sboxEntry g (bitsToNumber [b0, b5]) (bitsToNumber [b1, b2, b3, b4]))).map (List.drop 4)
  | _ => none

/-- The outputs of the S-boxes of a list of groups of a 48-unit sequence, concatenated (43_feistel.md R169, steps 3 to
5). -/
def seqSboxes (x : BitSeq) : List (Fin 8) → Option BitSeq
  | [] => some []
  | g :: gs => do
    let out ← seqSbox g ((x.drop (6 * g.val)).take 6)
    let rest ← seqSboxes x gs
    some (out ++ rest)

/-- `feistel` on sequences (43_feistel.md R169); a half of another length than 32, or a key of another than 48, is
refused. -/
def seqFeistel (r k : BitSeq) : Option BitSeq := do
  requireLength 32 r
  let e ← applyTable tableE r
  let x ← xor48 e k
  let s ← seqSboxes x (List.finRange 8)
  applyTable tableP s

/-- One S-box: six bits to four (43_feistel.md R168). -/
def sbox (g : Fin 8) (grp : BitVec 6) : BitVec 4 :=
  BitVec.ofNat 4 (sboxEntry g
    (bitsToNumber [grp.getMsbD 0, grp.getMsbD 5])
    (bitsToNumber [grp.getMsbD 1, grp.getMsbD 2, grp.getMsbD 3, grp.getMsbD 4]))

/-- Group `g` of a 48-bit word: its bits `6g..6g+5` from the most significant end (43_feistel.md R169, step 3). -/
def sixBits (x : BitVec 48) (g : Fin 8) : BitVec 6 := x.extractLsb' (42 - 6 * g.val) 6

/-- The eight S-boxes side by side, S1 first (43_feistel.md R169, steps 3 to 5). -/
def sboxLayer (x : BitVec 48) : Word :=
  sbox 0 (sixBits x 0) ++ sbox 1 (sixBits x 1) ++ sbox 2 (sixBits x 2) ++ sbox 3 (sixBits x 3)
    ++ sbox 4 (sixBits x 4) ++ sbox 5 (sixBits x 5) ++ sbox 6 (sixBits x 6) ++ sbox 7 (sixBits x 7)

/-- `feistel` (43_feistel.md R169). -/
def feistel (r : Word) (k : RoundKey) : Word :=
  permute 32 tableP (sboxLayer (permute 48 tableE r ^^^ k))

end Sys2Proof.Machine
end

