-- ==== Sys2Proof/Machine/BlockCore.lean ====
section
/-! DEFINITION. The block function (44_block_core.md R180 to R184), on sequences as rule R180 words it and on fixed
widths; the engine of Engine.lean runs the same pieces one round at a time. -/

namespace Sys2Proof.Machine

/-- The loop of R180 on sequences, over the rounds listed. -/
def seqRounds (ks : KsMode) (masterKey : BitSeq) (sched : ShiftSchedule) :
    List (Fin 16) → BitSeq × BitSeq → Option (BitSeq × BitSeq)
  | [], h => some h
  | i :: rest, (l, r) => do
    let k ← seqRoundKey ks masterKey sched i
    let f ← seqFeistel r k
    let newR ← xor32 l f
    seqRounds ks masterKey sched rest (r, newR)

/-- `processBlock` on sequences (44_block_core.md R180): the preoutput is `R ++ L` (90_conflicts.md C2). A block that is
not 64 units long, "non-block-aligned chunk at the core boundary", and a master key that is not, are refused
(60_exceptions.md R251, 92_eei_decisions.md D34). -/
def seqProcessBlock (build : Build) (block64 masterKey : BitSeq) (direction : Direction) : Option BitSeq := do
  requireLength 64 block64
  requireLength 64 masterKey
  let x ← applyTable tableIP block64
  let (l, r) ← seqRounds build.ks masterKey (scheduleFor build.shiftFwd direction) (List.finRange 16)
    (x.take 32, x.drop 32)
  applyTable tableFP (r ++ l)

/-- The two halves (L, R) of a block in flight (10_state.md R32). -/
abbrev Halves := Word × Word

/-- The first 32 bits of a block: `x[0..31]`. -/
def firstHalf (x : Block) : Word := x.extractLsb' 32 32

/-- The last 32 bits of a block: `x[32..63]`. -/
def secondHalf (x : Block) : Word := x.extractLsb' 0 32

/-- The halves after the initial permutation (44_block_core.md R180 steps 1 and 2, R181). -/
def initialHalves (block64 : Block) : Halves :=
  (firstHalf (permute 64 tableIP block64), secondHalf (permute 64 tableIP block64))

/-- One round: the new L is the old R, the new R is `xor32(L, feistel(R, K))` (44_block_core.md R183). -/
def roundOnce (k : RoundKey) (h : Halves) : Halves := (h.2, h.1 ^^^ feistel h.2 k)

/-- One round for each key listed, in order. -/
def runRounds : List RoundKey → Halves → Halves
  | [], h => h
  | k :: ks, h => runRounds ks (roundOnce k h)

/-- The round keys of a direction in a build, round 0 first (44_block_core.md R184). -/
def roundKeys (build : Build) (masterKey : Block) (direction : Direction) : List RoundKey :=
  (List.finRange 16).map (deriveRoundKey build.ks masterKey (scheduleFor build.shiftFwd direction))

/-- The result of the halves after the last round: FP of the preoutput `R ++ L` (44_block_core.md R182). -/
def finalBlock (h : Halves) : Block := permute 64 tableFP (h.2 ++ h.1)

/-- `processBlock` (44_block_core.md R180). -/
def processBlock (build : Build) (block64 masterKey : Block) (direction : Direction) : Block :=
  finalBlock (runRounds (roundKeys build masterKey direction) (initialHalves block64))

end Sys2Proof.Machine
end

