-- ==== Sys2Proof/Machine/Flags.lean ====
section
/-! DEFINITION. The flags: STATUS (10_state.md R24) and the error conditions (60_exceptions.md R251). The core has no
arithmetic condition codes (10_state.md R34). -/

namespace Sys2Proof.Machine

/-- The four error conditions (60_exceptions.md R251). -/
inductive ErrorKind where
  | emptyKey
  | noKey
  | busyViolation
  | illegalCommand
  deriving DecidableEq, Repr

/-- The code of an error: its STATUS bit number (60_exceptions.md R251). -/
def ErrorKind.code : ErrorKind → Nat
  | .emptyKey => 3
  | .noKey => 4
  | .busyViolation => 5
  | .illegalCommand => 6

/-- DIR as a bit: 0 encrypt, 1 decrypt (10_state.md R24). -/
def Direction.bit : Direction → BitVec 1
  | .forward => 0
  | .reverse => 1

/-- STATUS: reserved [31:13] read 0, ROUND [12:8], DIR [7], the error bits [6:3], KEY_VALID [2], DONE [1], BUSY [0]
(10_state.md R24). -/
def statusWord (s : State) : Word :=
  (0 : BitVec 19) ++ s.round ++ s.dir.bit ++ BitVec.ofBool s.errIllegal ++ BitVec.ofBool s.errBusy
    ++ BitVec.ofBool s.errNoKey ++ BitVec.ofBool s.errEmptyKey ++ BitVec.ofBool s.keyValid ++ BitVec.ofBool s.done
    ++ BitVec.ofBool s.busy

/-- CONFIG: bit [0] is 0 for DOC and 1 for FIPS46, [31:1] read 0 (10_state.md R30). -/
def configWord (s : State) : Word :=
  match s.build.ks with
  | .doc => 0x00000000
  | .fips46 => 0x00000001

/-- The sticky bit of an error (60_exceptions.md R251). -/
def errorFlag (e : ErrorKind) (s : State) : Bool :=
  match e with
  | .emptyKey => s.errEmptyKey
  | .noKey => s.errNoKey
  | .busyViolation => s.errBusy
  | .illegalCommand => s.errIllegal

end Sys2Proof.Machine
end

