-- ==== Sys2Proof/Machine/Operands.lean ====
section
/-! DEFINITION. The operands of the commands: they have no operand fields, their operands are registers
(30_encoding.md R85 to R87). -/

namespace Sys2Proof.Machine

/-- `kb(j)`, key byte `j` in 0..7 (30_encoding.md R86, 10_state.md R25). -/
def keyByte (s : State) (j : Nat) : Byte :=
  if j < 4 then s.key0.extractLsb' (24 - 8 * j) 8 else s.key1.extractLsb' (24 - 8 * (j - 4)) 8

/-- `keyBytes`: the first `min(KEYLEN[7:0], 8)` key bytes (30_encoding.md R86). -/
def keyBytes (s : State) : List Byte := (List.range (min s.keylen.toNat 8)).map (keyByte s)

/-- The input block `seq32(DIN0) ++ seq32(DIN1)` (30_encoding.md R87, 10_state.md R27). -/
def inputBlock (s : State) : Block := s.din0 ++ s.din1

/-- The output block `seq32(DOUT0) ++ seq32(DOUT1)` (10_state.md R28). -/
def outputBlock (s : State) : Block := s.dout0 ++ s.dout1

end Sys2Proof.Machine
end

