-- ==== Sys2Proof/Machine/Ops.lean ====
section
/-! DEFINITION. The named operations over the registers that the meanings are made of. -/

namespace Sys2Proof.Machine

/-! ### Errors

The core takes no traps: an error sets its STATUS bit, nothing is saved, and there is no return from it
(60_exceptions.md R250, R254). -/

/-- `raise <Error>`: set the sticky bit of the error and change nothing else (00_scope.md R9, 60_exceptions.md
R250). -/
def raise (e : ErrorKind) (s : State) : State :=
  { s with
    errEmptyKey := s.errEmptyKey || e == .emptyKey
    errNoKey := s.errNoKey || e == .noKey
    errBusy := s.errBusy || e == .busyViolation
    errIllegal := s.errIllegal || e == .illegalCommand }

/-- Clear the four sticky error bits (45_commands.md R206). -/
def clearErrors (s : State) : State :=
  { s with errEmptyKey := false, errNoKey := false, errBusy := false, errIllegal := false }

/-! ### The key -/

/-- `KEY_VALID <- 0`, the second half of raising EMPTY_KEY (45_commands.md R202, 90_conflicts.md C8). -/
def dropKeyValid (s : State) : State := { s with keyValid := false }

/-- `MK <- mk; KEY_VALID <- 1` (45_commands.md R202). -/
def loadMasterKey (mk : Block) (s : State) : State := { s with masterKey := mk, keyValid := true }

/-! ### A block operation -/

/-- An accepted ENC or DEC: L and R from IP of DIN, ROUND 0, DIR, BUSY 1, DONE 0 (45_commands.md R204, R205,
44_block_core.md R181). -/
def accept (direction : Direction) (s : State) : State :=
  { s with
    l := (initialHalves (inputBlock s)).1
    r := (initialHalves (inputBlock s)).2
    round := 0
    dir := direction
    busy := true
    done := false }

/-- One round under the key `k`: L, R and ROUND (44_block_core.md R183). -/
def advanceRound (k : RoundKey) (s : State) : State :=
  { s with l := (roundOnce k (s.l, s.r)).1, r := (roundOnce k (s.l, s.r)).2, round := s.round + 1 }

/-- Completion: DOUT from FP of `R ++ L`, BUSY 0, DONE 1 (44_block_core.md R182, R185). -/
def completeBlock (s : State) : State :=
  { s with
    dout0 := firstHalf (finalBlock (s.l, s.r))
    dout1 := secondHalf (finalBlock (s.l, s.r))
    busy := false
    done := true }

/-! ### The register window -/

/-- A read returns `v` to the host (30_encoding.md R80, log 2). -/
def respond (v : Word) (s : State) : State := { s with responses := v :: s.responses }

/-- KEY0 <- w (45_commands.md R208). -/
def setKey0 (w : Word) (s : State) : State := { s with key0 := w }

/-- KEY1 <- w (45_commands.md R208). -/
def setKey1 (w : Word) (s : State) : State := { s with key1 := w }

/-- KEYLEN <- zext_32(w[7:0]): bits [31:8] are dropped (45_commands.md R208, 10_state.md R26). -/
def setKeylen (w : Word) (s : State) : State := { s with keylen := w.extractLsb' 0 8 }

/-- DIN0 <- w (45_commands.md R208). -/
def setDin0 (w : Word) (s : State) : State := { s with din0 := w }

/-- DIN1 <- w (45_commands.md R208). -/
def setDin1 (w : Word) (s : State) : State := { s with din1 := w }

/-- The value a register reads as, reserved bits 0 (45_commands.md R210). -/
def registerValue (reg : RegName) (s : State) : Word :=
  match reg with
  | .cmd => 0
  | .status => statusWord s
  | .key0 => s.key0
  | .key1 => s.key1
  | .keylen => s.keylen.setWidth 32
  | .din0 => s.din0
  | .din1 => s.din1
  | .dout0 => s.dout0
  | .dout1 => s.dout1
  | .mk0 => firstHalf s.masterKey
  | .mk1 => secondHalf s.masterKey
  | .config => configWord s

/-- What a read of an offset returns: 0 at a misaligned or reserved one (20_memory.md R62, R64, R65, R66). -/
def readOffset (addr : BitVec 8) (s : State) : Word :=
  match selectRegister addr with
  | some reg => registerValue reg s
  | none => 0

/-! ### Reset -/

/-- Every register and internal element at its reset value; the build and with it CONFIG keep their value,
and so does what is not the core's (70_reset_and_hazards.md R270, 10_state.md R35, log 18). -/
def resetCore (s : State) : State :=
  { State.resetFor s.build with inputs := s.inputs, responses := s.responses }

/-- What the outside does after the head input. -/
def dropInput (s : State) : State := { s with inputs := s.inputs.tail }

/-- Inputs put before those waiting. -/
def pushInputs (es : List Input) (s : State) : State := { s with inputs := es ++ s.inputs }

end Sys2Proof.Machine
end

