-- ==== Sys2Proof/Machine/Commands.lean ====
section
/-! DEFINITION. The meanings of the commands (45_commands.md R200 to R207). Each takes effect at once, against the
state as it stands. -/

namespace Sys2Proof.Machine

/-- NOP (45_commands.md R201). -/
def execNop (s : State) : StepResult := .next s

/-- LDKEY (45_commands.md R202, R203). -/
def execLdkey (s : State) : StepResult :=
  if s.busy then .next (raise .busyViolation s)
  else if s.keylen = 0 then .next (dropKeyValid (raise .emptyKey s))
  else .next (loadMasterKey (deriveMasterKey (keyBytes s)) s)

/-- Start a block operation (45_commands.md R203 to R205): refused while busy or without a key. -/
def startBlock (direction : Direction) (s : State) : StepResult :=
  if s.busy then .next (raise .busyViolation s)
  else if s.keyValid = false then .next (raise .noKey s)
  else .next (accept direction s)

/-- ENC (45_commands.md R204). -/
def execEnc (s : State) : StepResult := startBlock .forward s

/-- DEC (45_commands.md R205). -/
def execDec (s : State) : StepResult := startBlock .reverse s

/-- CLRERR (45_commands.md R206). -/
def execClrerr (s : State) : StepResult := .next (clearErrors s)

/-- ILLEGAL (45_commands.md R207). -/
def illegal (s : State) : StepResult := .next (raise .illegalCommand s)

/-- ILLEGAL, reserved OP 5 (30_encoding.md R82). -/
def execIllegalOp5 (_rsvd : BitVec 29) (s : State) : StepResult := illegal s

/-- ILLEGAL, reserved OP 6 (30_encoding.md R82). -/
def execIllegalOp6 (_rsvd : BitVec 29) (s : State) : StepResult := illegal s

/-- ILLEGAL, reserved OP 7 (30_encoding.md R82). -/
def execIllegalOp7 (_rsvd : BitVec 29) (s : State) : StepResult := illegal s

/-- ILLEGAL, a reserved bit set (30_encoding.md R83). -/
def execIllegalRsvd (_rsvd : BitVec 29) (_op : BitVec 3) (s : State) : StepResult := illegal s

/-- Command issue: the write of `w` to offset 0x00 (45_commands.md R200), with the check of the word first
(60_exceptions.md R252). -/
def issueCommand (w : Word) (s : State) : StepResult :=
  if w.extractLsb' 3 29 ≠ 0 ∨ w.extractLsb' 0 3 = 5 ∨ w.extractLsb' 0 3 = 6 ∨ w.extractLsb' 0 3 = 7 then illegal s
  else if w.extractLsb' 0 3 = 0 then execNop s
  else if w.extractLsb' 0 3 = 1 then execLdkey s
  else if w.extractLsb' 0 3 = 2 then execEnc s
  else if w.extractLsb' 0 3 = 3 then execDec s
  else execClrerr s

/-- WR CMD (45_commands.md R200). -/
def execWrCmd (wdata : Word) (s : State) : StepResult := issueCommand wdata s

end Sys2Proof.Machine
end

