-- ==== Sys2Proof/Machine/Registers.lean ====
section
/-! DEFINITION. The meanings of the bus accesses but WR CMD: register writes (45_commands.md R208), ignored writes
(R209) and reads (R210). -/

namespace Sys2Proof.Machine

/-- A write that changes nothing (45_commands.md R209). -/
def ignoredWrite (s : State) : StepResult := .next s

/-- A read of a register: its value is returned and nothing else happens (45_commands.md R210, 20_memory.md R66). -/
def readRegister (reg : RegName) (s : State) : StepResult := .next (respond (registerValue reg s) s)

/-- WR KEY0 (45_commands.md R208). -/
def execWrKey0 (wdata : Word) (s : State) : StepResult := .next (setKey0 wdata s)

/-- WR KEY1 (45_commands.md R208). -/
def execWrKey1 (wdata : Word) (s : State) : StepResult := .next (setKey1 wdata s)

/-- WR KEYLEN (45_commands.md R208). -/
def execWrKeylen (wdata : Word) (s : State) : StepResult := .next (setKeylen wdata s)

/-- WR DIN0 (45_commands.md R208). -/
def execWrDin0 (wdata : Word) (s : State) : StepResult := .next (setDin0 wdata s)

/-- WR DIN1 (45_commands.md R208). -/
def execWrDin1 (wdata : Word) (s : State) : StepResult := .next (setDin1 wdata s)

/-- WR STATUS: read-only, ignored (45_commands.md R209). -/
def execWrStatus (_wdata : Word) (s : State) : StepResult := ignoredWrite s

/-- WR DOUT0: read-only, ignored (45_commands.md R209). -/
def execWrDout0 (_wdata : Word) (s : State) : StepResult := ignoredWrite s

/-- WR DOUT1: read-only, ignored (45_commands.md R209). -/
def execWrDout1 (_wdata : Word) (s : State) : StepResult := ignoredWrite s

/-- WR MK0: read-only, ignored (45_commands.md R209). -/
def execWrMk0 (_wdata : Word) (s : State) : StepResult := ignoredWrite s

/-- WR MK1: read-only, ignored (45_commands.md R209). -/
def execWrMk1 (_wdata : Word) (s : State) : StepResult := ignoredWrite s

/-- WR CONFIG: read-only, ignored (45_commands.md R209). -/
def execWrConfig (_wdata : Word) (s : State) : StepResult := ignoredWrite s

/-- A write to a misaligned or reserved offset, ignored (45_commands.md R209, 20_memory.md R64, R65). -/
def execWrOther (_addr : BitVec 8) (_wdata : Word) (s : State) : StepResult := ignoredWrite s

/-- RD CMD (45_commands.md R210). -/
def execRdCmd (s : State) : StepResult := readRegister .cmd s

/-- RD STATUS (45_commands.md R210). -/
def execRdStatus (s : State) : StepResult := readRegister .status s

/-- RD KEY0 (45_commands.md R210). -/
def execRdKey0 (s : State) : StepResult := readRegister .key0 s

/-- RD KEY1 (45_commands.md R210). -/
def execRdKey1 (s : State) : StepResult := readRegister .key1 s

/-- RD KEYLEN (45_commands.md R210). -/
def execRdKeylen (s : State) : StepResult := readRegister .keylen s

/-- RD DIN0 (45_commands.md R210). -/
def execRdDin0 (s : State) : StepResult := readRegister .din0 s

/-- RD DIN1 (45_commands.md R210). -/
def execRdDin1 (s : State) : StepResult := readRegister .din1 s

/-- RD DOUT0 (45_commands.md R210). -/
def execRdDout0 (s : State) : StepResult := readRegister .dout0 s

/-- RD DOUT1 (45_commands.md R210). -/
def execRdDout1 (s : State) : StepResult := readRegister .dout1 s

/-- RD MK0 (45_commands.md R210). -/
def execRdMk0 (s : State) : StepResult := readRegister .mk0 s

/-- RD MK1 (45_commands.md R210). -/
def execRdMk1 (s : State) : StepResult := readRegister .mk1 s

/-- RD CONFIG (45_commands.md R210). -/
def execRdConfig (s : State) : StepResult := readRegister .config s

/-- A read of a misaligned or reserved offset returns 0 (45_commands.md R210, 20_memory.md R64, R65). -/
def execRdOther (_addr : BitVec 8) (s : State) : StepResult := .next (respond 0 s)

end Sys2Proof.Machine
end

