-- ==== Sys2Proof/Machine/Dispatch.lean ====
section
/-! DEFINITION. One arm per constructor of `Instr`. -/

namespace Sys2Proof.Machine

def exec (i : Instr) (s : State) : Host.Outcome State Fault Refusal :=
  match i with
  -- format CMD
  | .nop => Sys2Proof.Machine.execNop s
  | .ldkey => Sys2Proof.Machine.execLdkey s
  | .enc => Sys2Proof.Machine.execEnc s
  | .dec => Sys2Proof.Machine.execDec s
  | .clrerr => Sys2Proof.Machine.execClrerr s
  | .illegalOp5 rsvd => Sys2Proof.Machine.execIllegalOp5 rsvd s
  | .illegalOp6 rsvd => Sys2Proof.Machine.execIllegalOp6 rsvd s
  | .illegalOp7 rsvd => Sys2Proof.Machine.execIllegalOp7 rsvd s
  | .illegalRsvd rsvd op => Sys2Proof.Machine.execIllegalRsvd rsvd op s
  -- format BUS
  | .wrCmd wdata => Sys2Proof.Machine.execWrCmd wdata s
  | .rdCmd => Sys2Proof.Machine.execRdCmd s
  | .wrStatus wdata => Sys2Proof.Machine.execWrStatus wdata s
  | .rdStatus => Sys2Proof.Machine.execRdStatus s
  | .wrKey0 wdata => Sys2Proof.Machine.execWrKey0 wdata s
  | .rdKey0 => Sys2Proof.Machine.execRdKey0 s
  | .wrKey1 wdata => Sys2Proof.Machine.execWrKey1 wdata s
  | .rdKey1 => Sys2Proof.Machine.execRdKey1 s
  | .wrKeylen wdata => Sys2Proof.Machine.execWrKeylen wdata s
  | .rdKeylen => Sys2Proof.Machine.execRdKeylen s
  | .wrDin0 wdata => Sys2Proof.Machine.execWrDin0 wdata s
  | .rdDin0 => Sys2Proof.Machine.execRdDin0 s
  | .wrDin1 wdata => Sys2Proof.Machine.execWrDin1 wdata s
  | .rdDin1 => Sys2Proof.Machine.execRdDin1 s
  | .wrDout0 wdata => Sys2Proof.Machine.execWrDout0 wdata s
  | .rdDout0 => Sys2Proof.Machine.execRdDout0 s
  | .wrDout1 wdata => Sys2Proof.Machine.execWrDout1 wdata s
  | .rdDout1 => Sys2Proof.Machine.execRdDout1 s
  | .wrMk0 wdata => Sys2Proof.Machine.execWrMk0 wdata s
  | .rdMk0 => Sys2Proof.Machine.execRdMk0 s
  | .wrMk1 wdata => Sys2Proof.Machine.execWrMk1 wdata s
  | .rdMk1 => Sys2Proof.Machine.execRdMk1 s
  | .wrConfig wdata => Sys2Proof.Machine.execWrConfig wdata s
  | .rdConfig => Sys2Proof.Machine.execRdConfig s
  | .wrOther addr wdata => Sys2Proof.Machine.execWrOther addr wdata s
  | .rdOther addr => Sys2Proof.Machine.execRdOther addr s

end Sys2Proof.Machine
end

