-- ==== Sys2Proof/Machine/Engine.lean ====
section
/-! DEFINITION. The round engine (44_block_core.md R183 to R186). -/

namespace Sys2Proof.Machine

/-- The round key of round `i` of the operation in flight (44_block_core.md R184). -/
def roundKey (s : State) (i : Fin 16) : RoundKey :=
  deriveRoundKey s.build.ks s.masterKey (scheduleFor s.build.shiftFwd s.dir) i

/-- The round step of round `i = ROUND`; round 15 also completes the operation (44_block_core.md R183, R185). A ROUND
above 15 has no round (10_state.md R24, log 6). -/
def roundStep (s : State) : StepResult :=
  if h : s.round.toNat < 16 then
    if s.round = 15 then .next (completeBlock (advanceRound (roundKey s ⟨s.round.toNat, h⟩) s))
    else .next (advanceRound (roundKey s ⟨s.round.toNat, h⟩) s)
  else .fault (.roundOutOfRange s.round)

/-- The engine's turn: a round step exactly when BUSY = 1, else it has no step and the state stays
(44_block_core.md R186, 60_exceptions.md R260, log 5). -/
def coreStep (s : State) : StepResult := if s.busy then roundStep s else .next s

end Sys2Proof.Machine
end

