-- ==== Sys2Proof/Machine/Boundary.lean ====
section
/-! DEFINITION. What each input at the core's boundary does: accesses, the engine's turn, a clock cycle, a reset
cycle, the host's POLL. The step (Step.lean) only takes the next input and performs it. -/

namespace Sys2Proof.Machine

/-- A clock cycle's next state while BUSY was 1 at its start: what the engine writes (L, R, ROUND, DOUT, BUSY, DONE)
from the engine's step, everything else from the access (70_reset_and_hazards.md R278, R281, log 11). -/
def mergeCycle (accessed stepped : State) : State :=
  { accessed with
    l := stepped.l
    r := stepped.r
    round := stepped.round
    dout0 := stepped.dout0
    dout1 := stepped.dout1
    busy := stepped.busy
    done := stepped.done }

/-- The access of a clock cycle, if there is one, on the state at its start. -/
def cycleAccess (access : Option (BitVec 41)) (s : State) : StepResult :=
  match access with
  | some t => exec (decodeBus t) s
  | none => .next s

/-- One clock cycle with `rst = 0`: the access and the engine's step both see the state at the start of the cycle
(70_reset_and_hazards.md R278). -/
def clockCycle (access : Option (BitVec 41)) (s : State) : StepResult :=
  match cycleAccess access s with
  | .next accessed =>
    if s.busy then
      match roundStep s with
      | .next stepped => .next (mergeCycle accessed stepped)
      | .fault f => .fault f
      | .refused r => .refused r
    else .next accessed
  | .fault f => .fault f
  | .refused r => .refused r

/-- One clock cycle with `rst = 1`: the reset state, whatever else happens; a write in it has no effect and a read
returns 0 (70_reset_and_hazards.md R270, R271). -/
def resetCycle (access : Option (BitVec 41)) (s : State) : State :=
  match access with
  | some t => if busWe t then resetCore s else respond 0 (resetCore s)
  | none => resetCore s

/-- One read of the loop POLL: `RD STATUS`, then again while its bit 0 is 1, after `gap + 1` turns of the engine
(30_encoding.md R89, log 13). -/
def pollOnce (gap : Nat) (s : State) : State :=
  if (statusWord s).getLsbD 0 then
    pushInputs (List.replicate (gap + 1) .core ++ [.poll gap]) (respond (statusWord s) s)
  else respond (statusWord s) s

/-- What an input does, once it is taken from the list. -/
def perform (e : Input) (s : State) : StepResult :=
  match e with
  | .bus t => exec (decode (.bus t)) s
  | .cmd w => exec (decode (.cmd w)) s
  | .core => coreStep s
  | .cycle access => clockCycle access s
  | .reset access => .next (resetCycle access s)
  | .poll gap => .next (pollOnce gap s)

/-- Where nothing waits at the boundary the engine moves on its own (44_block_core.md R186, log 5). -/
def performNext (s : State) : StepResult :=
  match s.inputs with
  | [] => coreStep s
  | e :: _ => perform e (dropInput s)

/-- The input that is the encoded instruction of a table row of `nbits` bits: a CMD word or a BUS transaction. -/
def inputOfWord (nbits w : Nat) : Input :=
  if nbits ≤ 32 then .cmd (BitVec.ofNat 32 w) else .bus (BitVec.ofNat 41 w)

end Sys2Proof.Machine
end

