-- ==== Sys2Proof/Machine/Step.lean ====
section
/-! DEFINITION. The step: the next input at the core's boundary is performed; with none waiting the engine moves
(44_block_core.md R186, 20_memory.md R69). -/

namespace Sys2Proof.Machine

/-- One step of the whole: one host access, one turn of the engine, or one clock cycle. -/
def step (s : State) : Host.Outcome State Fault Refusal := performNext s

/-- The state in which the next step performs exactly the given encoded instruction (log 17). -/
def State.withFetchWord (s : State) (nbits w : Nat) : State := pushInputs [inputOfWord nbits w] s

end Sys2Proof.Machine
end

