-- ==== Sys2Proof/Machine/Run.lean ====
section
/-! DEFINITION. Runs of the machine: so many steps, stopping at the first fault or refusal. It is `Host.Core.run` of
`Sys2Proof.core` with the state type written out (`Laws/Step.lean`). -/

namespace Sys2Proof.Machine

/-- `n` steps. -/
def run : Nat → State → StepResult
  | 0, s => .next s
  | n + 1, s =>
    match step s with
    | .next t => run n t
    | .fault f => .fault f
    | .refused r => .refused r

end Sys2Proof.Machine
end

