-- ==== Sys2Proof/Machine/Orchestrator.lean ====
section
/-! DEFINITION. The host's side of the bus: the host notation (30_encoding.md R88, R89) and the cipher orchestrator
(46_host_orchestrator.md R230 to R233). It is host software and no part of the block (00_scope.md R5, log 14): it
only fills the list of inputs and reads the responses. -/

namespace Sys2Proof.Machine

/-! ### Host notation -/

/-- The input that is an encoded instruction. -/
def Frame.toInput : Frame → Input
  | .cmd w => .cmd w
  | .bus t => .bus t

/-- One line of a host program: the transaction of an instruction (30_encoding.md R88). -/
def hostLine (i : Instr) : Input := Frame.toInput (encode i)

/-- `SETKEY k0, k1, len` (30_encoding.md R89). -/
def setKeyLines (k0 k1 len : Word) : List Input :=
  [hostLine (.wrKey0 k0), hostLine (.wrKey1 k1), hostLine (.wrKeylen len)]

/-- `SETBLK d0, d1` (30_encoding.md R89). -/
def setBlkLines (d0 d1 : Word) : List Input := [hostLine (.wrDin0 d0), hostLine (.wrDin1 d1)]

/-- `GETBLK` (30_encoding.md R89). -/
def getBlkLines : List Input := [hostLine .rdDout0, hostLine .rdDout1]

/-- `LDKEY` is `WR CMD, 0x00000001` (30_encoding.md R89). -/
def ldkeyLine : Input := hostLine (.wrCmd 0x00000001)

/-- `ENC` is `WR CMD, 0x00000002` and `DEC` is `WR CMD, 0x00000003` (30_encoding.md R89). -/
def cipherLine : Direction → Input
  | .forward => hostLine (.wrCmd 0x00000002)
  | .reverse => hostLine (.wrCmd 0x00000003)

/-! ### construct -/

/-- The one error of the orchestrator, `EmptyInputError` (46_host_orchestrator.md R230). -/
inductive HostError where
  | emptyInput
  deriving DecidableEq, Repr

/-- `pad`: right-pad to a multiple of 8 bytes with `PAD_BYTE` (46_host_orchestrator.md R231). -/
def pad (text : List Byte) : List Byte :=
  text ++ List.replicate ((8 - text.length % 8) % 8) Config.padByte

/-- The word of four bytes from position `k`, missing bytes 0 (46_host_orchestrator.md R230, 20_memory.md R60). -/
def wordOfBytesAt (bytes : List Byte) (k : Nat) : Word :=
  bytes.getD k 0 ++ bytes.getD (k + 1) 0 ++ bytes.getD (k + 2) 0 ++ bytes.getD (k + 3) 0

/-- The bus accesses of `construct` for a key (46_host_orchestrator.md R230). The spec lets any number of engine turns
pass between them (20_memory.md R69, 93_implementation_defined.md I17); none is listed here. With BUSY = 0 a turn changes
nothing. On a core with BUSY = 1 the spec's LDKEY may come before the operation in flight completes and be refused, or
after it and be accepted; here it always comes before and is refused (DESIGN CHOICE, log 13). -/
def constructLines (key : List Byte) : List Input :=
  setKeyLines (wordOfBytesAt key 0) (wordOfBytesAt key 4) (BitVec.ofNat 32 (min key.length 255)) ++ [ldkeyLine]

/-- What `construct` answers: the accesses it makes and the padded text of the handle, or the error, with no access
(46_host_orchestrator.md R230). -/
def construct (text key : List Byte) : Except HostError (List Input × List Byte) :=
  if text = [] ∨ key = [] then .error .emptyInput else .ok (constructLines key, pad text)

/-! ### encrypt and decrypt -/

/-- The 8-byte chunks of a padded text as blocks (46_host_orchestrator.md R232); a rest shorter than a block is
refused (93_implementation_defined.md I5). -/
def blocksOf : List Byte → Option (List Block)
  | [] => some []
  | b0 :: b1 :: b2 :: b3 :: b4 :: b5 :: b6 :: b7 :: rest =>
    (blocksOf rest).map ((b0 ++ b1 ++ b2 ++ b3 ++ b4 ++ b5 ++ b6 ++ b7 : BitVec 64) :: ·)
  | _ => none

/-- The bytes of a block, first most significant: `bytes(v0) ++ bytes(v1)` (46_host_orchestrator.md R232). -/
def bytesOfBlock (b : Block) : List Byte :=
  [b.extractLsb' 56 8, b.extractLsb' 48 8, b.extractLsb' 40 8, b.extractLsb' 32 8,
   b.extractLsb' 24 8, b.extractLsb' 16 8, b.extractLsb' 8 8, b.extractLsb' 0 8]

/-- The accesses for one chunk: SETBLK, ENC or DEC, POLL, GETBLK (46_host_orchestrator.md R232, R233). The spec leaves
open how many engine turns pass between two accesses (93_implementation_defined.md I17, 70_reset_and_hazards.md R280);
here `turns` of them pass between ENC or DEC and POLL's first read, `gap + 1` between POLL's reads, any two numbers, the
same ones for every chunk. None is listed between the other accesses: with BUSY = 0 a turn changes nothing; on a core
with BUSY = 1 the schedule is the one in which ENC or DEC comes before the operation in flight completes and is refused
(DESIGN CHOICE, log 13). -/
def chunkLines (direction : Direction) (turns gap : Nat) (b : Block) : List Input :=
  setBlkLines (firstHalf b) (secondHalf b) ++ [cipherLine direction] ++ List.replicate turns .core ++ [.poll gap]
    ++ getBlkLines

/-- The core driven by a list of inputs for at most `fuel` steps; none where it stops. -/
def drive (fuel : Nat) (lines : List Input) (s : State) : Option State :=
  match run fuel { s with inputs := lines } with
  | .next t => some t
  | .fault _ => none
  | .refused _ => none

/-- The steps that suffice for one chunk: five accesses, `turns` turns before POLL, at most 17 reads of POLL and
16 + `gap` turns between them. -/
def chunkFuel (turns gap : Nat) : Nat := 38 + turns + gap

/-- One chunk through the core: the new state and the block the two reads of DOUT return. -/
def cipherChunk (direction : Direction) (turns gap : Nat) (b : Block) (s : State) : Option (State × Block) :=
  match drive (chunkFuel turns gap) (chunkLines direction turns gap b) s with
  | some t =>
    match t.responses with
    | v1 :: v0 :: _ => some (t, v0 ++ v1)
    | _ => none
  | none => none

/-- All chunks, in order (46_host_orchestrator.md R232, R233). -/
def cipherChunks (direction : Direction) (turns gap : Nat) : List Block → State → Option (State × List Byte)
  | [], s => some (s, [])
  | b :: bs, s => do
    let (t, out) ← cipherChunk direction turns gap b s
    let (u, rest) ← cipherChunks direction turns gap bs t
    some (u, bytesOfBlock out ++ rest)

/-- `construct(text, key)` on the core `s`, then `encrypt()` (forward) or `decrypt()` (reverse): the output bytes
(46_host_orchestrator.md R230, R232, R233), on the schedules of `constructLines` and `chunkLines`: on a core with
BUSY = 1 no engine turn passes before LDKEY, which is then refused (DESIGN CHOICE, log 13). -/
def orchestrate (direction : Direction) (turns gap : Nat) (text key : List Byte) (s : State) :
    Except HostError (Option (List Byte)) :=
  (construct text key).map fun (lines, padded) => do
    let t ← drive 4 lines s
    let blocks ← blocksOf padded
    let (_, out) ← cipherChunks direction turns gap blocks t
    some out

end Sys2Proof.Machine
end

