-- ==== Sys2Proof/Safety.lean ====
section
/-! DEFINITION. What the statements call a good state, a block in flight, a safe run, and the instruction a step is
about to perform. -/

namespace Sys2Proof.Machine

/-- Every byte of the key has an odd number of ones (42_key_schedule.md R140, R141). -/
def oddParity (mk : Block) : Prop := ∀ g < 8, (((seqOf mk).drop (8 * g)).take 8).count true % 2 = 1

/-- The invariant of the core (10_state.md R24, R33, 60_exceptions.md R252, 42_key_schedule.md R140). -/
structure Inv (s : State) : Prop where
  /-- "While BUSY = 1, ROUND is in 0 to 15" (R24). -/
  busyRound : s.busy = true → s.round.toNat < 16
  /-- "when DONE = 1, ROUND = 16" (R24). -/
  doneRound : s.done = true → s.round = 16
  /-- "BUSY = 1 and DONE = 1 never hold together" (R24). -/
  notBusyAndDone : ¬(s.busy = true ∧ s.done = true)
  /-- With no operation in flight or completed, ROUND is at its reset value (R24). -/
  idleRound : s.busy = false → s.done = false → s.round = 0
  /-- An operation in flight has a key (R252). -/
  busyKey : s.busy = true → s.keyValid = true
  /-- A valid master key is one that `deriveMasterKey` makes: odd parity in every byte (R140). -/
  keyParity : s.keyValid = true → oddParity s.masterKey

/-- The halves after the first `i` rounds of the block function (44_block_core.md R180). -/
def halvesAfter (build : Build) (mk : Block) (direction : Direction) (b : Block) (i : Nat) : Halves :=
  runRounds ((roundKeys build mk direction).take i) (initialHalves b)

/-- The operation in flight is the one that was accepted with the input block `b`, and it has done ROUND rounds
(10_state.md R33, 44_block_core.md R183). -/
structure InFlight (b : Block) (s : State) : Prop where
  busy : s.busy = true
  round : s.round.toNat < 16
  halves : (s.l, s.r) = halvesAfter s.build s.masterKey s.dir b s.round.toNat

/-- The operation accepted with the input block `b` has completed: DOUT is its result (44_block_core.md R185, R187). -/
structure Completed (b : Block) (s : State) : Prop where
  busy : s.busy = false
  done : s.done = true
  round : s.round = 16
  output : outputBlock s = processBlock s.build b s.masterKey s.dir

/-- No step of the run stops, for any number of steps. -/
def NeverStops (s : State) : Prop := ∀ n, ∃ t, run n s = .next t

/-- The instruction an input is, if it is a host access. -/
def inputInstr : Input → Option Instr
  | .bus t => some (decodeBus t)
  | .cmd w => some (decodeCommand w)
  | .core => none
  | .cycle access => access.map decodeBus
  | .reset _ => none
  | .poll _ => some .rdStatus

/-- The command that a write to CMD issues; any other instruction is itself (45_commands.md R200). -/
def issued : Instr → Instr
  | .wrCmd w => decodeCommand w
  | i => i

/-- The instruction of the access the next step performs, if it performs one. -/
def nextAccess (s : State) : Option Instr := s.inputs.head?.bind inputInstr

/-- The instruction the next step performs, commands taken out of their bus write. -/
def nextInstr (s : State) : Option Instr := (nextAccess s).map issued

/-- The next step is a reset cycle (70_reset_and_hazards.md R270). -/
def nextIsReset (s : State) : Prop := ∃ access, s.inputs.head? = some (.reset access)

/-- What the engine reads and writes, and DOUT (44_block_core.md R183, R185, R189). -/
def sameEngine (s t : State) : Prop :=
  t.l = s.l ∧ t.r = s.r ∧ t.round = s.round ∧ t.dir = s.dir ∧ t.busy = s.busy ∧ t.done = s.done
    ∧ t.masterKey = s.masterKey ∧ t.build = s.build ∧ outputBlock t = outputBlock s

end Sys2Proof.Machine
end

