-- ==== Sys2Proof/Certificates/Slice0/Obligations.lean ====
section
/-! DEFINITION. The statements for the provers, `Obligations.<Name>`. A docstring names the rule of spec/ a statement
formalises; where the sentence is an inference the spec marks as its own, or a choice of the model, it says so. -/

open Sys2Proof Sys2Proof.Machine

/-! ### Encoding -/

/-- Decoding an encoded well-formed instruction gives it back, for every instruction and operand (30_encoding.md R80
to R84). -/
def Obligations.DecodeOfEncodeIsTheInstruction : Prop :=
  ∀ i : Instr, i.wellFormed = true → decode (encode i) = i

/-- The other direction: a command word and a write transaction are the encoding of what they decode to; a read is
one up to its ignored WDATA (the model encodes 0 there, log 10); what a word decodes to is well formed. -/
def Obligations.EncodeOfDecodeIsTheWord : Prop :=
  (∀ w : Word, encode (decodeCommand w) = .cmd w ∧ (decodeCommand w).wellFormed = true) ∧
  (∀ t : BitVec 41, t.getLsbD 40 = true → encode (decodeBus t) = .bus t) ∧
  (∀ t : BitVec 41, t.getLsbD 40 = false →
    encode (decodeBus t) = .bus (0#1 ++ t.extractLsb' 32 8 ++ (0 : Word))) ∧
  (∀ t : BitVec 41, (decodeBus t).wellFormed = true)

/-- Words written out from 30_encoding.md R80 to R83 and 10_state.md R22 decode to what they stand for. -/
def Obligations.WordsOfTheSpecDecode : Prop :=
  decode (.cmd 0x00000000) = .nop ∧ decode (.cmd 0x00000001) = .ldkey ∧ decode (.cmd 0x00000002) = .enc ∧
  decode (.cmd 0x00000003) = .dec ∧ decode (.cmd 0x00000004) = .clrerr ∧
  decode (.cmd 0x00000007) = .illegalOp7 0 ∧ decode (.cmd 0x00000009) = .illegalRsvd 1 1 ∧
  decode (.bus 0x10000000002) = .wrCmd 2 ∧ decode (.bus 0x10813345779) = .wrKey0 0x13345779 ∧
  decode (.bus 0x104FFFFFFFF) = .wrStatus 0xFFFFFFFF ∧ decode (.bus 0x00400000000) = .rdStatus ∧
  decode (.bus 0x02800000000) = .rdMk1 ∧ decode (.bus 0x11511111111) = .wrOther 0x15 0x11111111 ∧
  decode (.bus 0x00600000000) = .rdOther 0x06 ∧ decode (.bus 0x03000000000) = .rdOther 0x30

/-- The bytes of a frame decode to what the frame decodes to. The byte layout is the model's choice (log 8). -/
def Obligations.BytesOfAFrameDecode : Prop :=
  ∀ f : Frame, decodeBytes f.toBytes = .ok (decode f)

/-! ### The step -/

/-- A step performs the decoded access at the head of the inputs on the state that is left: `exec` of what the frame
decodes to. The list of inputs is the model's own (log 1, 7). -/
def Obligations.StepPerformsTheDecodedAccess : Prop :=
  ∀ (s : State) (f : Frame) (rest : List Input), s.inputs = Frame.toInput f :: rest →
    step s = exec (decode f) { s with inputs := rest }

/-- What the decoder reads from a table word is what the next step performs once the word is placed (log 17). -/
def Obligations.PlacedTableWordIsPerformed : Prop :=
  ∀ (s : State) (nbits w : Nat) (i : Instr), decodeTableWord nbits w = some i →
    step (s.withFetchWord nbits w) = exec i s

/-- The engine's turn, by a `core` input or with nothing waiting: with BUSY = 1 it is the engine's own step, which
`RoundStepFollowsItsRule` describes and which advances ROUND, with BUSY = 0 it changes nothing
(44_block_core.md R186; how turns are scheduled is the model's, log 1, 5). -/
def Obligations.EngineMovesExactlyWhenBusy : Prop :=
  ∀ (s : State), (s.inputs = [] ∨ ∃ rest, s.inputs = .core :: rest) →
    (s.busy = false → step s = .next { s with inputs := s.inputs.tail }) ∧
    (s.busy = true → step s = coreStep { s with inputs := s.inputs.tail }) ∧
    (s.busy = true → s.round.toNat < 16 → ∃ t, step s = .next t ∧ t.round.toNat = s.round.toNat + 1)

/-! ### Reset -/

/-- 10_state.md R35: after reset every register reads 0, CONFIG its hardwired value, and MK, L, R are zero; in every
build. -/
def Obligations.ResetLeavesEveryRegisterZero : Prop :=
  ∀ (build : Build) (addr : BitVec 8),
    (addr ≠ 0x2C → readOffset addr (State.resetFor build) = 0) ∧
    readOffset 0x2C (State.resetFor build) = (match build.ks with | .doc => 0 | .fips46 => 1) ∧
    seqOf (State.resetFor build).masterKey = zeros 64 ∧
    seqOf (State.resetFor build).l = zeros 32 ∧ seqOf (State.resetFor build).r = zeros 32

/-- A reset cycle leads from ANY state (an operation in flight, the unspecified state before the first reset) to the
reset state of the same build; a write in that cycle has no effect and a read returns 0 (70_reset_and_hazards.md R270,
R271). That the inputs and responses, the model's own, are kept is the model's choice (log 18). -/
def Obligations.ResetCycleLeadsToTheResetState : Prop :=
  ∀ (s : State) (rest : List Input) (access : Option (BitVec 41)), s.inputs = .reset access :: rest →
    step s = .next { State.resetFor s.build with
      inputs := rest
      responses := match access with
        | some t => if t.getLsbD 40 then s.responses else 0 :: s.responses
        | none => s.responses }

/-! ### Invariants and safe runs -/

/-- The reset state of every build satisfies the invariant, whatever waits at the boundary. -/
def Obligations.ResetSatisfiesTheInvariant : Prop :=
  ∀ (build : Build) (es : List Input) (vs : List Word),
    Inv { State.resetFor build with inputs := es, responses := vs }

/-- Every step keeps the invariant: ROUND and the flags stay as 10_state.md R24 says, an operation in flight has a
key, and a valid master key has odd parity (inferences the spec marks as its own: R24, R252, R140). -/
def Obligations.EveryStepKeepsTheInvariant : Prop :=
  ∀ s t : State, Inv s → step s = .next t → Inv t

/-- From a state that satisfies the invariant no run stops, whatever the host does (45_commands.md R200 to R210 and
44_block_core.md R183 are total; the only fault is the model's, log 6). -/
def Obligations.NoRunStops : Prop :=
  ∀ s : State, Inv s → NeverStops s

/-- No step changes the build: CONFIG reads bit [0] as `KS_MODE`, [31:1] as 0, before and after anything, reset
included (10_state.md R30, R20). That the build's parameters ride in the state, where the last clause speaks of them, is
the model's choice (log 3, 19). -/
def Obligations.ConfigIsHardwired : Prop :=
  ∀ s t : State, step s = .next t →
    readOffset 0x2C s = (match s.build.ks with | .doc => 0 | .fips46 => 1) ∧
    readOffset 0x2C t = readOffset 0x2C s ∧ t.build = s.build

/-! ### Commands -/

/-- 45_commands.md R201: NOP leaves every register unchanged, also while BUSY = 1. -/
def Obligations.NopChangesNothing : Prop :=
  ∀ s : State, exec .nop s = .next s ∧ exec (.wrCmd 0x00000000) s = .next s

/-- 45_commands.md R202: LDKEY refuses while busy, raises EMPTY_KEY (and drops KEY_VALID, nothing else) for
KEYLEN = 0, and else loads `deriveMasterKey` of the first `min(KEYLEN, 8)` key bytes and changes nothing else. Its
corner cases: it is idempotent, KEYLEN >= 7 gives the MK of KEYLEN = 7, and key bytes from `min(KEYLEN, 8)` on are
ignored. -/
def Obligations.LdkeyFollowsItsRule : Prop :=
  ∀ (i : Instr), i = .ldkey ∨ i = .wrCmd 0x00000001 → ∀ s : State,
    (s.busy = true → exec i s = .next { s with errBusy := true }) ∧
    (s.busy = false → s.keylen = 0 → exec i s = .next { s with errEmptyKey := true, keyValid := false }) ∧
    (s.busy = false → s.keylen ≠ 0 →
      (∃ mk : Block, seqOf mk = seqMasterKey ((List.range (min s.keylen.toNat 8)).map (keyByte s)) ∧
        exec i s = .next { s with masterKey := mk, keyValid := true }) ∧
      (∀ t, exec i s = .next t → exec i t = .next t) ∧
      (∀ t u, 7 ≤ s.keylen.toNat → exec i s = .next t → exec i { s with keylen := 7 } = .next u →
        t.masterKey = u.masterKey) ∧
      (∀ s' t t', s'.busy = false → s'.keylen = s.keylen →
        (∀ j < min s.keylen.toNat 8, keyByte s' j = keyByte s j) →
        exec i s = .next t → exec i s' = .next t' → t'.masterKey = t.masterKey))

/-- 45_commands.md R204, R205, 44_block_core.md R181: ENC and DEC are refused while busy (ERR_BUSY) or without a key
(ERR_NO_KEY), and else load L and R with IP of DIN and set ROUND, DIR, BUSY and DONE; nothing else changes, DOUT
included. -/
def Obligations.EncAndDecStartABlockOperation : Prop :=
  ∀ (i : Instr) (d : Direction),
    (i = .enc ∧ d = .forward) ∨ (i = .dec ∧ d = .reverse) ∨ (i = .wrCmd 0x00000002 ∧ d = .forward) ∨
      (i = .wrCmd 0x00000003 ∧ d = .reverse) →
    ∀ s : State,
      (s.busy = true → exec i s = .next { s with errBusy := true }) ∧
      (s.busy = false → s.keyValid = false → exec i s = .next { s with errNoKey := true }) ∧
      (s.busy = false → s.keyValid = true →
        ∃ l r : Word, applyTable tableIP (seqOf s.din0 ++ seqOf s.din1) = some (seqOf l ++ seqOf r) ∧
          exec i s = .next { s with l := l, r := r, round := 0, dir := d, busy := true, done := false })

/-- 45_commands.md R203: LDKEY, ENC or DEC while BUSY = 1 sets ERR_BUSY and changes nothing else; NOP, CLRERR and
ILLEGAL are not refused. -/
def Obligations.BusyRefusesLdkeyEncAndDecOnly : Prop :=
  ∀ s : State, s.busy = true →
    (∀ i, i = Instr.ldkey ∨ i = .enc ∨ i = .dec ∨ i = .wrCmd 1 ∨ i = .wrCmd 2 ∨ i = .wrCmd 3 →
      exec i s = .next { s with errBusy := true }) ∧
    exec .nop s = .next s ∧
    exec .clrerr s = .next { s with errEmptyKey := false, errNoKey := false, errBusy := false, errIllegal := false } ∧
    (∀ rsvd op, exec (.illegalRsvd rsvd op) s = .next { s with errIllegal := true }) ∧
    (∀ rsvd, exec (.illegalOp5 rsvd) s = .next { s with errIllegal := true } ∧
      exec (.illegalOp6 rsvd) s = .next { s with errIllegal := true } ∧
      exec (.illegalOp7 rsvd) s = .next { s with errIllegal := true })

/-- 45_commands.md R206: CLRERR clears STATUS[6:3] and writes nothing else, in any state. -/
def Obligations.ClrerrClearsTheErrorBits : Prop :=
  ∀ (i : Instr), i = .clrerr ∨ i = .wrCmd 0x00000004 → ∀ s : State,
    exec i s = .next { s with errEmptyKey := false, errNoKey := false, errBusy := false, errIllegal := false }

/-- 45_commands.md R207, 30_encoding.md R82, R83: every CMD word but the five legal ones sets ERR_ILLEGAL and changes
nothing else, in any state, also while BUSY = 1; so do the four forms it can decode to. -/
def Obligations.IllegalWordsSetErrIllegalOnly : Prop :=
  ∀ s : State,
    (∀ w : Word, w.toNat > 4 → exec (.wrCmd w) s = .next { s with errIllegal := true } ∧
      exec (decodeCommand w) s = .next { s with errIllegal := true }) ∧
    (∀ rsvd, exec (.illegalOp5 rsvd) s = .next { s with errIllegal := true }) ∧
    (∀ rsvd, exec (.illegalOp6 rsvd) s = .next { s with errIllegal := true }) ∧
    (∀ rsvd, exec (.illegalOp7 rsvd) s = .next { s with errIllegal := true }) ∧
    (∀ rsvd op, exec (.illegalRsvd rsvd op) s = .next { s with errIllegal := true })

/-- 45_commands.md R200: an aligned write of `w` to offset 0x00 issues one command, by the case analysis of the rule,
in any state; a misaligned write to 0x01 to 0x03 issues nothing. -/
def Obligations.WriteToCmdIssuesItsCommand : Prop :=
  ∀ (s : State) (w : Word),
    exec (decode (.bus (1#1 ++ 0x00#8 ++ w))) s = exec (.wrCmd w) s ∧
    (w.extractLsb' 3 29 ≠ 0 ∨ w.extractLsb' 0 3 = 5 ∨ w.extractLsb' 0 3 = 6 ∨ w.extractLsb' 0 3 = 7 →
      exec (.wrCmd w) s = .next { s with errIllegal := true }) ∧
    (w.extractLsb' 3 29 = 0 →
      (w.extractLsb' 0 3 = 0 → exec (.wrCmd w) s = exec .nop s) ∧
      (w.extractLsb' 0 3 = 1 → exec (.wrCmd w) s = exec .ldkey s) ∧
      (w.extractLsb' 0 3 = 2 → exec (.wrCmd w) s = exec .enc s) ∧
      (w.extractLsb' 0 3 = 3 → exec (.wrCmd w) s = exec .dec s) ∧
      (w.extractLsb' 0 3 = 4 → exec (.wrCmd w) s = exec .clrerr s)) ∧
    exec (.wrCmd w) s = exec (decodeCommand w) s ∧
    (∀ addr : BitVec 8, addr = 0x01 ∨ addr = 0x02 ∨ addr = 0x03 →
      exec (decode (.bus (1#1 ++ addr ++ w))) s = .next s)

/-- 60_exceptions.md R252: an instruction raises at most one error. -/
def Obligations.AtMostOneErrorIsRaised : Prop :=
  ∀ (i : Instr) (s t : State) (e e' : ErrorKind), exec i s = .next t →
    errorFlag e s = false → errorFlag e t = true → errorFlag e' s = false → errorFlag e' t = true → e = e'

/-- 60_exceptions.md R250: error bits are sticky. Over any step, a set bit stays set unless the step is a reset cycle
or performs CLRERR. -/
def Obligations.ErrorsStayUntilClrerrOrReset : Prop :=
  ∀ (s t : State) (e : ErrorKind), step s = .next t → errorFlag e s = true →
    errorFlag e t = true ∨ nextIsReset s ∨ nextInstr s = some .clrerr

/-- 60_exceptions.md R250, R251: only a command raises an error, and which: EMPTY_KEY an LDKEY with KEYLEN = 0, NO_KEY
an ENC or DEC with KEY_VALID = 0, BUSY_VIOLATION an LDKEY, ENC or DEC with BUSY = 1, ILLEGAL_COMMAND an illegal word.
Over any step. -/
def Obligations.ErrorsAreRaisedByTheirCauses : Prop :=
  ∀ (s t : State) (e : ErrorKind), step s = .next t → errorFlag e s = false → errorFlag e t = true →
    ∃ i, nextInstr s = some i ∧
      match e with
      | .emptyKey => i = .ldkey ∧ s.keylen = 0 ∧ s.busy = false ∧ t.keyValid = false
      | .noKey => (i = .enc ∨ i = .dec) ∧ s.keyValid = false ∧ s.busy = false
      | .busyViolation => (i = .ldkey ∨ i = .enc ∨ i = .dec) ∧ s.busy = true
      | .illegalCommand => (∃ w : Word, w.toNat > 4 ∧ i = decodeCommand w)

/-- 20_memory.md R66, 45_commands.md R208 to R210: no access but a command changes STATUS. -/
def Obligations.OnlyCommandsChangeStatus : Prop :=
  ∀ (i : Instr) (s t : State), i.wellFormed = true → exec i s = .next t → statusWord t ≠ statusWord s →
    ∃ w : Word, issued i = decodeCommand w

/-! ### Register accesses -/

/-- 45_commands.md R208: a write to an RW register stores it (KEYLEN only bits [7:0]) and changes nothing else. -/
def Obligations.RegisterWritesStoreAndChangeNothingElse : Prop :=
  ∀ (s : State) (w : Word),
    exec (.wrKey0 w) s = .next { s with key0 := w } ∧ exec (.wrKey1 w) s = .next { s with key1 := w } ∧
    exec (.wrDin0 w) s = .next { s with din0 := w } ∧ exec (.wrDin1 w) s = .next { s with din1 := w } ∧
    ∃ t, exec (.wrKeylen w) s = .next t ∧ readOffset 0x10 t = w &&& 0x000000FF ∧
      t = { s with keylen := t.keylen }

/-- The window seen by the host: what is written to an RW register is what a read of it returns next, and no other
offset reads differently (45_commands.md R208, R210, 10_state.md R22). -/
def Obligations.OnlyTheWrittenOffsetReadsDifferently : Prop :=
  ∀ (s t : State) (addr other : BitVec 8) (w : Word),
    addr = 0x08 ∨ addr = 0x0C ∨ addr = 0x14 ∨ addr = 0x18 →
    exec (decode (.bus (1#1 ++ addr ++ w))) s = .next t →
    readOffset addr t = w ∧ (other ≠ addr → readOffset other t = readOffset other s)

/-- 45_commands.md R209: a write to STATUS, DOUT0, DOUT1, MK0, MK1, CONFIG or a reserved offset, and every misaligned
write, change nothing; by offset, and for every constructor. -/
def Obligations.IgnoredWritesChangeNothing : Prop :=
  ∀ (s : State) (addr : BitVec 8) (w : Word),
    (addr = 0x04 ∨ addr = 0x1C ∨ addr = 0x20 ∨ addr = 0x24 ∨ addr = 0x28 ∨ addr = 0x2C ∨ 0x30 ≤ addr.toNat ∨
        addr.extractLsb' 0 2 ≠ 0 →
      exec (decode (.bus (1#1 ++ addr ++ w))) s = .next s) ∧
    exec (.wrStatus w) s = .next s ∧ exec (.wrDout0 w) s = .next s ∧ exec (.wrDout1 w) s = .next s ∧
    exec (.wrMk0 w) s = .next s ∧ exec (.wrMk1 w) s = .next s ∧ exec (.wrConfig w) s = .next s ∧
    exec (.wrOther addr w) s = .next s

/-- A misaligned write has no effect on any state, a misaligned read returns 0 and has no effect; no error bit is set
(20_memory.md R64). That the value read is put on the list of responses is the model's choice (log 2). -/
def Obligations.MisalignedAccessesDoNothing : Prop :=
  ∀ (s : State) (addr : BitVec 8) (w : Word), addr.extractLsb' 0 2 ≠ 0 →
    exec (decode (.bus (1#1 ++ addr ++ w))) s = .next s ∧
    exec (decode (.bus (0#1 ++ addr ++ w))) s = .next { s with responses := 0x00000000 :: s.responses }

/-- An aligned read returns the register's value with reserved bits 0 and has no side effect; a reserved or misaligned
one returns 0 (45_commands.md R210). That the value is put on the list of responses is the model's choice (log 2). -/
def Obligations.ReadsReturnTheRegisterAndChangeNothingElse : Prop :=
  ∀ s : State,
    exec .rdCmd s = .next { s with responses := 0x00000000 :: s.responses } ∧
    exec .rdKey0 s = .next { s with responses := s.key0 :: s.responses } ∧
    exec .rdKey1 s = .next { s with responses := s.key1 :: s.responses } ∧
    exec .rdKeylen s = .next { s with responses := ((0 : BitVec 24) ++ s.keylen) :: s.responses } ∧
    exec .rdDin0 s = .next { s with responses := s.din0 :: s.responses } ∧
    exec .rdDin1 s = .next { s with responses := s.din1 :: s.responses } ∧
    exec .rdDout0 s = .next { s with responses := s.dout0 :: s.responses } ∧
    exec .rdDout1 s = .next { s with responses := s.dout1 :: s.responses } ∧
    (∃ v, seqOf v = (seqOf s.masterKey).take 32 ∧ exec .rdMk0 s = .next { s with responses := v :: s.responses }) ∧
    (∃ v, seqOf v = (seqOf s.masterKey).drop 32 ∧ exec .rdMk1 s = .next { s with responses := v :: s.responses }) ∧
    exec .rdConfig s =
      .next { s with responses := (match s.build.ks with | .doc => 0x00000000 | .fips46 => 0x00000001) :: s.responses } ∧
    (∃ v, exec .rdStatus s = .next { s with responses := v :: s.responses } ∧
      v.getLsbD 0 = s.busy ∧ v.getLsbD 1 = s.done ∧ v.getLsbD 2 = s.keyValid ∧ v.getLsbD 3 = s.errEmptyKey ∧
      v.getLsbD 4 = s.errNoKey ∧ v.getLsbD 5 = s.errBusy ∧ v.getLsbD 6 = s.errIllegal ∧
      v.getLsbD 7 = (s.dir == .reverse) ∧ v.extractLsb' 8 5 = s.round ∧ v.extractLsb' 13 19 = 0) ∧
    (∀ addr, exec (.rdOther addr) s = .next { s with responses := 0x00000000 :: s.responses }) ∧
    (∀ (addr : BitVec 8) (w : Word), 0x30 ≤ addr.toNat ∨ addr.extractLsb' 0 2 ≠ 0 →
      exec (decode (.bus (0#1 ++ addr ++ w))) s = .next { s with responses := 0x00000000 :: s.responses })

/-- 30_encoding.md R86, 10_state.md R25, 20_memory.md R60: the eight key bytes are KEY0 and KEY1 unpacked, and LDKEY
takes the first `min(KEYLEN, 8)` of them. -/
def Obligations.KeyBytesAreTheRegistersUnpacked : Prop :=
  ∀ s : State,
    unpackBits ((List.range 8).map (keyByte s)) = seqOf s.key0 ++ seqOf s.key1 ∧
    keyBytes s = ((List.range 8).map (keyByte s)).take (min s.keylen.toNat 8)

/-- 10_state.md R29: MK0 and MK1 show MK, which only a successful LDKEY and reset change, over any step. -/
def Obligations.MasterKeyChangesOnlyByLdkeyOrReset : Prop :=
  ∀ s t : State,
    seqOf (readOffset 0x24 s) ++ seqOf (readOffset 0x28 s) = seqOf s.masterKey ∧
    (step s = .next t → t.masterKey ≠ s.masterKey →
      nextIsReset s ∨ (nextInstr s = some .ldkey ∧ s.busy = false ∧ s.keylen ≠ 0))

/-- 10_state.md R28, 44_block_core.md R185: DOUT changes only at completion and at reset, over any step. -/
def Obligations.OutputChangesOnlyAtCompletionOrReset : Prop :=
  ∀ s t : State, step s = .next t → outputBlock t ≠ outputBlock s →
    nextIsReset s ∨ (s.busy = true ∧ s.round = 15 ∧ t.busy = false ∧ t.done = true ∧ t.round = 16)

/-! ### The datapath -/

/-- 40_bit_utilities.md R100 to R107, 41_permutation_engine.md R120, 60_exceptions.md R251 and
93_implementation_defined.md I5: the contract violations, and only they, are refused; among them, at the core boundary, a
block or a master key that is not 64 units long, and a text that is no whole number of 8-byte chunks (log 12). -/
def Obligations.ContractViolationsAreRefused : Prop :=
  (∀ s : BitSeq, packBits s = none ↔ s.length % 8 ≠ 0) ∧
  (∀ n : Nat, numberToBits n = none ↔ 255 < n) ∧
  (∀ a b : BitSeq, xor32 a b = none ↔ ¬(a.length = 32 ∧ b.length = 32)) ∧
  (∀ a b : BitSeq, xor48 a b = none ↔ ¬(a.length = 48 ∧ b.length = 48)) ∧
  (∀ (s : BitSeq) (n : Nat), rotateLeft64 s n = none ↔ ¬(s.length = 64 ∧ n ≤ 64)) ∧
  (∀ (s : BitSeq) (n : Nat), rotateLeft28 s n = none ↔ ¬(s.length = 28 ∧ n ≤ 28)) ∧
  (∀ (table : List Nat) (s : BitSeq), applyTable table s = none ↔ ∃ p ∈ table, p = 0 ∨ s.length < p) ∧
  (∀ (ks : KsMode) (mk : BitSeq) (sched : ShiftSchedule) (i : Fin 16),
    seqRoundKey ks mk sched i = none ↔ mk.length ≠ 64) ∧
  (∀ (g : Fin 8) (grp : BitSeq), seqSbox g grp = none ↔ grp.length ≠ 6) ∧
  (∀ r k : BitSeq, seqFeistel r k = none ↔ ¬(r.length = 32 ∧ k.length = 48)) ∧
  (∀ (build : Build) (b mk : BitSeq) (d : Direction),
    seqProcessBlock build b mk d = none ↔ ¬(b.length = 64 ∧ mk.length = 64)) ∧
  (∀ text : List Byte, blocksOf text = none ↔ text.length % 8 ≠ 0)

/-- Packing and unpacking are inverse to each other (40_bit_utilities.md, an inference R101 marks as the spec's
own). -/
def Obligations.PackAndUnpackAreInverse : Prop :=
  (∀ bytes : List Byte, packBits (unpackBits bytes) = some bytes) ∧
  (∀ (s : BitSeq) (bytes : List Byte), packBits s = some bytes → unpackBits bytes = s)

/-- 40_bit_utilities.md R103: `numberToBits` gives eight units, is inverted by `bitsToNumber` on 0..255, its first
four units are 0 up to 15, and it refuses any other number. -/
def Obligations.NumberToBitsIsInvertedByBitsToNumber : Prop :=
  ∀ n : Nat, (255 < n → numberToBits n = none) ∧
    (n ≤ 255 → ∃ s, numberToBits n = some s ∧ s.length = 8 ∧ bitsToNumber s = n ∧ (n ≤ 15 → s.take 4 = zeros 4))

/-- 40_bit_utilities.md R106: `rotateLeft64` by `n` in 0..64 gives `seq[(j + n) mod 64]` at index `j`, so index 0 moves
to index `64 - n`; 0 and 64 are the identity, rotating by `n` then `m` is rotating by `(n + m) mod 64`, and another
`n` is refused. -/
def Obligations.RotationsComposeAndMoveTowardIndexZero : Prop :=
  ∀ (s : BitSeq) (n m : Nat), s.length = 64 →
    (64 < n → rotateLeft64 s n = none) ∧
    (n ≤ 64 → ∃ t, rotateLeft64 s n = some t ∧ t.length = 64 ∧ (∀ j < 64, t[j]? = s[(j + n) % 64]?) ∧
      (1 ≤ n → t[64 - n]? = s[0]?)) ∧
    rotateLeft64 s 0 = some s ∧ rotateLeft64 s 64 = some s ∧
    (n ≤ 64 → m ≤ 64 → (rotateLeft64 s n).bind (rotateLeft64 · m) = rotateLeft64 s ((n + m) % 64))

/-- FP and IP are inverse to each other, on sequences and on words (41_permutation_engine.md, the inference R128(a)
marks as the spec's own). -/
def Obligations.InitialAndFinalPermutationAreInverse : Prop :=
  (∀ x : BitSeq, x.length = 64 →
    (applyTable tableIP x).bind (applyTable tableFP) = some x ∧
    (applyTable tableFP x).bind (applyTable tableIP) = some x) ∧
  (∀ x : Block, permute 64 tableFP (permute 64 tableIP x) = x ∧ permute 64 tableIP (permute 64 tableFP x) = x)

/-- 42_key_schedule.md R140: unit `8g + j` of the master key is unit `7g + j` of the key bytes (0 past their end, bits
from 56 on not used), and unit `8g + 7` is 1 exactly when the seven before it have an even number of ones. -/
def Obligations.MasterKeyIsTheContentWithParity : Prop :=
  ∀ (bytes : List Byte) (g : Nat), g < 8 →
    (∀ j < 7, (deriveMasterKey bytes).getMsbD (8 * g + j) = (unpackBits bytes).getD (7 * g + j) false) ∧
    (deriveMasterKey bytes).getMsbD (8 * g + 7) =
      decide (((List.range 7).countP fun j => (unpackBits bytes).getD (7 * g + j) false) % 2 = 0)

/-- Every byte of a derived master key has odd parity, and so it is never the reset value of MK (42_key_schedule.md
R140, 10_state.md R35: inferences the spec marks as its own). -/
def Obligations.DerivedMasterKeysHaveOddParity : Prop :=
  ∀ bytes : List Byte, (seqMasterKey bytes).length = 64 ∧ oddParity (deriveMasterKey bytes) ∧
    deriveMasterKey bytes ≠ 0

/-- Key normalization: only the first seven bytes matter, and a shorter key is the same key followed by zero bytes
(42_key_schedule.md, the inference R148 marks as the spec's own). -/
def Obligations.OnlyTheFirstSevenKeyBytesMatter : Prop :=
  (∀ k k' : List Byte, 7 ≤ k.length → 7 ≤ k'.length → k.take 7 = k'.take 7 →
    deriveMasterKey k = deriveMasterKey k') ∧
  (∀ (k : List Byte) (n : Nat), k.length + n ≤ 7 → deriveMasterKey (k ++ List.replicate n 0) = deriveMasterKey k)

/-- The round key the machine computes on fixed widths is the one rules R143 and R144 of 42_key_schedule.md compute on
sequences, in both modes, for every key, shift schedule and round (amounts up to 28, log 19). -/
def Obligations.RoundKeysAreThoseOfTheRule : Prop :=
  ∀ (ks : KsMode) (mk : Block) (sched : ShiftSchedule) (i : Fin 16),
    seqRoundKey ks (seqOf mk) sched i = some (seqOf (deriveRoundKey ks mk sched i))

/-- `SHIFT_REV` is `SHIFT_FWD` reversed whatever the parameter (42_key_schedule.md R142), and so decryption's round
keys are encryption's in reverse order (the inference R146 marks as the spec's own); at the default of `SHIFT_FWD` it is
the list R142 writes out. -/
def Obligations.ReverseScheduleReversesTheRoundKeys : Prop :=
  (∀ (ks : KsMode) (mk : Block) (fwd : ShiftSchedule) (i : Fin 16),
    (shiftRev fwd)[i] = fwd[15 - i.val]'(by omega) ∧
    deriveRoundKey ks mk (shiftRev fwd) i = deriveRoundKey ks mk fwd ⟨15 - i.val, by omega⟩) ∧
  (∀ (build : Build) (mk : Block), roundKeys build mk .reverse = (roundKeys build mk .forward).reverse) ∧
  (shiftRev defaultShiftFwd).toList = [28, 27, 25, 23, 21, 19, 17, 15, 14, 12, 10, 8, 6, 4, 2, 1]

/-- In DOC mode the first 24 bits of the round key are the same in every round of both directions, whatever the
schedules; in FIPS46 mode no round key depends on the parity bits of MK (42_key_schedule.md, inferences R143 and R144
mark as the spec's own). -/
def Obligations.DocFixesHalfAKeyAndFipsIgnoresParity : Prop :=
  (∀ (mk : Block) (sched sched' : ShiftSchedule) (i j : Fin 16),
    (deriveRoundKey .doc mk sched i).extractLsb' 24 24 =
      (deriveRoundKey .doc mk sched' j).extractLsb' 24 24) ∧
  (∀ (mk mk' : Block) (sched : ShiftSchedule) (i : Fin 16),
    (∀ p < 64, p % 8 ≠ 7 → mk.getMsbD p = mk'.getMsbD p) →
    deriveRoundKey .fips46 mk sched i = deriveRoundKey .fips46 mk' sched i)

/-- The round function the machine computes on fixed widths is that of rules R168 and R169 of 43_feistel.md on
sequences, for every half and key. -/
def Obligations.FeistelIsThatOfTheRule : Prop :=
  (∀ (g : Fin 8) (grp : BitVec 6), seqSbox g (seqOf grp) = some (seqOf (sbox g grp))) ∧
  (∀ (r : Word) (k : RoundKey), seqFeistel (seqOf r) (seqOf k) = some (seqOf (feistel r k)))

/-- The block function the machine computes is that of rule R180 of 44_block_core.md on sequences, which is never
refused, for every build, both directions and every block and key. -/
def Obligations.ProcessBlockIsThatOfTheRule : Prop :=
  ∀ (build : Build) (b mk : Block) (d : Direction),
    seqProcessBlock build (seqOf b) (seqOf mk) d = some (seqOf (processBlock build b mk d))

/-- Round trip: decrypting an encrypted block under the same key returns it, and the other way round, in every build
(44_block_core.md, the inference R188 marks as the spec's own). -/
def Obligations.DecryptionInvertsEncryption : Prop :=
  ∀ (build : Build) (b mk : Block),
    processBlock build (processBlock build b mk .forward) mk .reverse = b ∧
    processBlock build (processBlock build b mk .reverse) mk .forward = b

/-! ### The engine -/

/-- 44_block_core.md R183: the round step of round ROUND, against the round key and round function of the rules on
sequences; the sixteenth also stores FP of `R ++ L` in DOUT, clears BUSY and sets DONE (R185). Nothing else
changes. -/
def Obligations.RoundStepFollowsItsRule : Prop :=
  ∀ (s : State) (h : s.round.toNat < 16), s.busy = true →
    ∃ (k f : BitSeq) (newR : Word),
      seqRoundKey s.build.ks (seqOf s.masterKey) (scheduleFor s.build.shiftFwd s.dir) ⟨s.round.toNat, h⟩ = some k ∧
      seqFeistel (seqOf s.r) k = some f ∧ xor32 (seqOf s.l) f = some (seqOf newR) ∧
      (s.round.toNat < 15 → coreStep s = .next { s with l := s.r, r := newR, round := s.round + 1 }) ∧
      (s.round = 15 → ∃ o0 o1 : Word,
        applyTable tableFP (seqOf newR ++ seqOf s.r) = some (seqOf o0 ++ seqOf o1) ∧
        coreStep s = .next { s with
          l := s.r, r := newR, round := 16, dout0 := o0, dout1 := o1, busy := false, done := true })

/-- Whatever the host does short of a reset, an operation in flight is the round-by-round image of the block it was
accepted with, under the same key, build and direction, until it completes with the result of `processBlock` in DOUT
(44_block_core.md, the inference R187 marks as the spec's own). -/
def Obligations.OperationInFlightIsCarriedToItsResult : Prop :=
  ∀ (b : Block) (s t : State), InFlight b s → ¬nextIsReset s → step s = .next t →
    (InFlight b t ∨ Completed b t) ∧ t.masterKey = s.masterKey ∧ t.dir = s.dir ∧ t.build = s.build

/-- An accepted ENC or DEC completes after exactly 16 engine steps, ROUND counting them, with
`DOUT = processBlock(DIN, MK, direction)` (70_reset_and_hazards.md R280; the agreement is the inference R187 of
44_block_core.md marks as the spec's own). The core has no input waiting (`inputs = []`), so that each step of the
machine is one engine step: the model's choice (log 1, 5). -/
def Obligations.AcceptedOperationTakesSixteenEngineSteps : Prop :=
  ∀ (s : State) (i : Instr) (d : Direction), (i = .enc ∧ d = .forward) ∨ (i = .dec ∧ d = .reverse) →
    s.busy = false → s.keyValid = true → s.inputs = [] →
    ∃ t, exec i s = .next t ∧ InFlight (inputBlock s) t ∧ t.dir = d ∧
      (∀ k < 16, ∃ u, run k t = .next u ∧ u.busy = true ∧ u.round.toNat = k ∧
        outputBlock u = outputBlock s) ∧
      ∃ u, run 16 t = .next u ∧ Completed (inputBlock s) u ∧ u.dir = d ∧
        u.masterKey = s.masterKey ∧ u.build = s.build

/-- No command, access or error can stop, stall or restart an operation: under every schedule of inputs without a
reset it completes, with the result of the block it was accepted with (70_reset_and_hazards.md R280; the engine's
fairness is the model's, log 5). -/
def Obligations.EveryOperationCompletesUnderAnySchedule : Prop :=
  ∀ (b : Block) (s : State), InFlight b s → (∀ e ∈ s.inputs, ∀ access, e ≠ .reset access) →
    ∃ n u, run n s = .next u ∧ Completed b u

/-- While an operation is in flight no instruction changes what the engine reads or writes, or DOUT
(70_reset_and_hazards.md R276, R281; 45_commands.md R203). -/
def Obligations.AccessesWhileBusyLeaveTheEngineAlone : Prop :=
  ∀ (i : Instr) (s t : State), s.busy = true → exec i s = .next t → sameEngine s t

/-- The clock cycle of the reference timing, where the access and the engine both see the state at its start, equals
"access, then core step"; with BUSY = 0 it is the access alone (70_reset_and_hazards.md, the inference R281 marks as
the spec's own, about R278). -/
def Obligations.ClockCycleIsAccessThenEngineStep : Prop :=
  ∀ (s a : State) (access : Option (BitVec 41)), cycleAccess access s = .next a →
    (s.busy = true → s.round.toNat < 16 → clockCycle access s = coreStep a) ∧
    (s.busy = false → clockCycle access s = .next a)

/-- Block independence: two idle cores with a valid key that agree on the build, MK and DIN compute the same result,
whatever else they hold (44_block_core.md, the inference R189 marks as the spec's own). Neither core has an input waiting
(`inputs = []`), so that sixteen steps of the machine are sixteen engine steps: the model's choice (log 1, 5). -/
def Obligations.ResultDependsOnBlockAndKeyOnly : Prop :=
  ∀ (s s' : State) (i : Instr), i = .enc ∨ i = .dec →
    s.build = s'.build → s.masterKey = s'.masterKey → s.din0 = s'.din0 → s.din1 = s'.din1 →
    s.busy = false → s'.busy = false → s.keyValid = true → s'.keyValid = true → s.inputs = [] → s'.inputs = [] →
    ∃ t t' u u', exec i s = .next t ∧ exec i s' = .next t' ∧ run 16 t = .next u ∧ run 16 t' = .next u' ∧
      u.done = true ∧ u'.done = true ∧ outputBlock u = outputBlock u'

/-! ### The host's side -/

/-- POLL ends, with the first STATUS read that shows BUSY = 0, and the operation it waited for has completed
(30_encoding.md R89; the engine turns between its reads are the model's, log 13). -/
def Obligations.PollEndsWithTheCompletedOperation : Prop :=
  ∀ (b : Block) (s : State) (gap : Nat) (rest : List Input), InFlight b s → s.inputs = .poll gap :: rest →
    ∃ n u vs, run n s = .next u ∧ u.inputs = rest ∧ Completed b u ∧
      u.responses = statusWord u :: vs ∧ (statusWord u).getLsbD 0 = false

/-- `construct` fails exactly when the text or the key is empty, and then makes no access; else its accesses load
`deriveMasterKey` of the host's key, of any length, into an idle core (46_host_orchestrator.md R230, log 14). -/
def Obligations.ConstructLoadsTheKeyOrRejectsEmptyInput : Prop :=
  ∀ (text key : List Byte) (s : State),
    (text = [] ∨ key = [] → construct text key = .error .emptyInput) ∧
    (text ≠ [] → key ≠ [] → construct text key = .ok (constructLines key, pad text) ∧
      (s.busy = false → ∃ t, drive 4 (constructLines key) s = some t ∧ t.busy = false ∧ t.keyValid = true ∧
        t.masterKey = deriveMasterKey key ∧ t.build = s.build ∧ outputBlock t = outputBlock s))

/-- `pad` adds 0 to 7 bytes at the end, all `PAD_BYTE`, to a multiple of 8 (46_host_orchestrator.md R231), for every
value of the open parameter (log 14). That an aligned text gets no filler is the inference R231 marks as the spec's
own. -/
def Obligations.PadReachesTheNextMultipleOfEight : Prop :=
  ∀ text : List Byte, (pad text).length % 8 = 0 ∧ (pad text).length < text.length + 8 ∧
    (pad text).take text.length = text ∧ (∀ b ∈ (pad text).drop text.length, b = Config.padByte) ∧
    (text.length % 8 = 0 → pad text = text)

/-- One chunk driven through the core (SETBLK, ENC or DEC, POLL, GETBLK) comes back as `processBlock` of it, and the
core is ready for the next (46_host_orchestrator.md R232, R233, log 14). It is about the schedules of `chunkLines`: any
number of engine turns between ENC or DEC and POLL, and any equal number of at least one between POLL's reads, the
model's choice (log 13). -/
def Obligations.ChunkThroughTheCoreIsProcessBlock : Prop :=
  ∀ (d : Direction) (turns gap : Nat) (b : Block) (s : State), s.busy = false → s.keyValid = true →
    ∃ t, cipherChunk d turns gap b s = some (t, processBlock s.build b s.masterKey d) ∧ t.busy = false ∧
      t.keyValid = true ∧ t.masterKey = s.masterKey ∧ t.build = s.build

/-- Encrypting a text and decrypting the result with the same key, both through the core, returns the padded text,
which is the text itself when its length is a multiple of 8; the filler is never removed (46_host_orchestrator.md,
the inference R234 marks as the spec's own; log 14). It is about the schedules of `chunkLines`, with any numbers of
engine turns, the same for every chunk of a call (log 13); the two calls may differ. -/
def Obligations.OrchestratorRoundTripReturnsThePaddedText : Prop :=
  ∀ (text key : List Byte) (turns gap turns' gap' : Nat) (s : State), text ≠ [] → key ≠ [] → s.busy = false →
    ∃ c, orchestrate .forward turns gap text key s = .ok (some c) ∧ c.length = (pad text).length ∧
      orchestrate .reverse turns' gap' c key s = .ok (some (pad text)) ∧ (text.length % 8 = 0 → pad text = text)
end

