-- ==== Sys2Proof/Laws/BitSeq.lean ====
section
/-! SUPPORT. Small lemmas about sequences, words and the conversions between them; one spec lemma for `permute`. -/

namespace Sys2Proof.Machine

@[simp] theorem length_zeros (n : Nat) : (zeros n).length = n := by simp [zeros]

@[simp] theorem length_seqOf {n : Nat} (w : BitVec n) : (seqOf w).length = n := by simp [seqOf]

theorem requireLength_eq_some {n : Nat} {s : BitSeq} (h : s.length = n) : requireLength n s = some () := by
  simp [requireLength, h]

theorem requireLength_eq_none {n : Nat} {s : BitSeq} (h : s.length ≠ n) : requireLength n s = none := by
  simp [requireLength, h]

@[simp] theorem requireLength_seqOf {n : Nat} (w : BitVec n) : requireLength n (seqOf w) = some () :=
  requireLength_eq_some (length_seqOf w)

theorem getD_seqOf {n : Nat} (w : BitVec n) (i : Nat) : (seqOf w).getD i false = w.getMsbD i := by
  by_cases h : i < n
  · simp [seqOf, h, List.getD_eq_getElem?_getD]
  · simp [seqOf, h, List.getD_eq_getElem?_getD, BitVec.getMsbD]

theorem bitsToNumber_concat (s : BitSeq) (b : BitUnit) :
    bitsToNumber (s ++ [b]) = 2 * bitsToNumber s + b.toNat := by
  simp [bitsToNumber]

theorem bitsToNumber_lt (s : BitSeq) : bitsToNumber s < 2 ^ s.length := by
  induction s using List.reverseRecOn with
  | nil => simp [bitsToNumber]
  | append_singleton s b ih =>
    have := b.toNat_le
    rw [bitsToNumber_concat, List.length_append, List.length_singleton, Nat.pow_succ]
    omega

/-- Bit `i` of the number, counted from the least significant end, is the unit `i` places before the last. -/
theorem testBit_bitsToNumber (s : BitSeq) (i : Nat) (h : i < s.length) :
    (bitsToNumber s).testBit i = s.getD (s.length - 1 - i) false := by
  induction s using List.reverseRecOn generalizing i with
  | nil => simp at h
  | append_singleton s b ih =>
    rw [bitsToNumber_concat]
    cases i with
    | zero => cases b <;> simp [Nat.testBit_zero]
    | succ i =>
      have hi : i < s.length := by simpa using h
      have hb : (2 * bitsToNumber s + b.toNat) / 2 = bitsToNumber s := by have := b.toNat_le; omega
      rw [Nat.testBit_succ, hb, ih i hi]
      have : s.length + 1 - 1 - (i + 1) < s.length := by omega
      simp only [List.length_append, List.length_singleton, List.getD_eq_getElem?_getD]
      rw [List.getElem?_append_left this]
      congr 2
      omega

theorem getMsbD_wordOf {n : Nat} {s : BitSeq} (h : s.length = n) (i : Nat) :
    (wordOf n s).getMsbD i = s.getD i false := by
  subst h
  by_cases hi : i < s.length
  · have hj : s.length - 1 - i < s.length := by omega
    simp only [BitVec.getMsbD, hi, decide_true, Bool.true_and, wordOf, BitVec.getLsbD_ofNat, hj]
    rw [testBit_bitsToNumber s _ hj]
    congr 1
    omega
  · simp [BitVec.getMsbD, hi, List.getD_eq_getElem?_getD]

theorem eq_of_getMsbD {n : Nat} {x y : BitVec n} (h : ∀ i < n, x.getMsbD i = y.getMsbD i) : x = y :=
  BitVec.eq_of_getMsbD_eq fun i hi => h i hi

@[simp] theorem wordOf_seqOf {n : Nat} (w : BitVec n) : wordOf n (seqOf w) = w :=
  eq_of_getMsbD fun i _ => by rw [getMsbD_wordOf (length_seqOf w), getD_seqOf]

theorem seqOf_wordOf {n : Nat} {s : BitSeq} (h : s.length = n) : seqOf (wordOf n s) = s := by
  apply List.ext_getElem (by simp [h])
  intro i h1 h2
  have := getD_seqOf (wordOf n s) i
  rw [getMsbD_wordOf h] at this
  rwa [List.getD_eq_getElem _ _ h1, List.getD_eq_getElem _ _ h2] at this

theorem seqOf_injective {n : Nat} {x y : BitVec n} (h : seqOf x = seqOf y) : x = y := by
  rw [← wordOf_seqOf x, h, wordOf_seqOf]

/-- A sequence of the right length is the sequence of a word. -/
theorem seqOf_eq {n : Nat} {w : BitVec n} {s : BitSeq} (hl : s.length = n)
    (h : ∀ i < n, w.getMsbD i = s.getD i false) : seqOf w = s := by
  rw [← seqOf_wordOf hl]
  congr 1
  exact eq_of_getMsbD fun i hi => by rw [h i hi, getMsbD_wordOf hl]

@[simp] theorem seqOf_append {m n : Nat} (x : BitVec m) (y : BitVec n) : seqOf (x ++ y) = seqOf x ++ seqOf y := by
  refine seqOf_eq (by simp) fun i _ => ?_
  rw [BitVec.getMsbD_append]
  by_cases h : i < m
  · rw [List.getD_append _ _ _ _ (by simpa using h), getD_seqOf]
    simp [h]
  · rw [List.getD_append_right _ _ _ _ (by simpa using h), length_seqOf, getD_seqOf]
    simp [h]

@[simp] theorem seqOf_zero (n : Nat) : seqOf (0 : BitVec n) = zeros n := by
  refine seqOf_eq (by simp) fun i _ => ?_
  simp [zeros, List.getD_eq_getElem?_getD, List.getElem?_replicate]
  split <;> rfl

theorem xorSeq_seqOf {n : Nat} (x y : BitVec n) : xorSeq n (seqOf x) (seqOf y) = some (seqOf (x ^^^ y)) := by
  simp only [xorSeq, length_seqOf, and_self, if_true, Option.some.injEq]
  refine (seqOf_eq (by simp) fun i hi => ?_).symm
  simp [List.getD_eq_getElem?_getD, seqOf, hi]

/-- A permutation of a word, one destination bit at a time (41_permutation_engine.md R120). -/
theorem getMsbD_permute {m n : Nat} {table : List Nat} (h : table.length = m) (x : BitVec n) (i : Nat) (hi : i < m) :
    (permute m table x).getMsbD i = x.getMsbD (table.getD i 0 - 1) := by
  subst h
  rw [permute, getMsbD_wordOf (by simp)]
  simp [List.getD_eq_getElem?_getD, hi]

/-- The fixed-width table application is `applyTable` of the sequence, for a table whose entries are in range
(41_permutation_engine.md R120). -/
theorem applyTable_seqOf {m n : Nat} {table : List Nat} (hl : table.length = m)
    (hr : (table.all fun p => decide (1 ≤ p ∧ p ≤ n)) = true) (x : BitVec n) :
    applyTable table (seqOf x) = some (seqOf (permute m table x)) := by
  rw [applyTable, if_pos (by simpa using hr), permute, seqOf_wordOf (by simpa using hl)]
  simp only [getD_seqOf]

end Sys2Proof.Machine
end

