-- ==== Sys2Proof/Laws/Datapath.lean ====
section
/-! SUPPORT. The shapes of the ROM tables and the small lemmas of the datapath. -/

namespace Sys2Proof.Machine

/-! ### Shapes of the tables (41_permutation_engine.md R120, 43_feistel.md) -/

theorem tableIP_shape : tableIP.length = 64 ∧ (tableIP.all fun p => decide (1 ≤ p ∧ p ≤ 64)) = true := by decide
theorem tableFP_shape : tableFP.length = 64 ∧ (tableFP.all fun p => decide (1 ≤ p ∧ p ≤ 64)) = true := by decide
theorem tableE_shape : tableE.length = 48 ∧ (tableE.all fun p => decide (1 ≤ p ∧ p ≤ 32)) = true := by decide
theorem tableP_shape : tableP.length = 32 ∧ (tableP.all fun p => decide (1 ≤ p ∧ p ≤ 32)) = true := by decide
theorem tablePC1C_shape : tablePC1C.length = 28 ∧ (tablePC1C.all fun p => decide (1 ≤ p ∧ p ≤ 64)) = true := by decide
theorem tablePC1D_shape : tablePC1D.length = 28 ∧ (tablePC1D.all fun p => decide (1 ≤ p ∧ p ≤ 64)) = true := by decide
theorem tablePC2_shape : tablePC2.length = 48 ∧ (tablePC2.all fun p => decide (1 ≤ p ∧ p ≤ 64)) = true := by decide

/-- Every S-box is four rows of sixteen 4-bit values (10_state.md R20, 43_feistel.md R160 to R167). -/
theorem tableS_shape (g : Fin 8) :
    (tableS g).length = 4 ∧ ((tableS g).all fun row => row.length == 16 && row.all fun v => decide (v < 16)) = true := by
  revert g; decide

theorem applyTable_IP (x : Block) : applyTable tableIP (seqOf x) = some (seqOf (permute 64 tableIP x)) :=
  applyTable_seqOf tableIP_shape.1 tableIP_shape.2 x
theorem applyTable_FP (x : Block) : applyTable tableFP (seqOf x) = some (seqOf (permute 64 tableFP x)) :=
  applyTable_seqOf tableFP_shape.1 tableFP_shape.2 x
theorem applyTable_E (x : Word) : applyTable tableE (seqOf x) = some (seqOf (permute 48 tableE x)) :=
  applyTable_seqOf tableE_shape.1 tableE_shape.2 x
theorem applyTable_P (x : Word) : applyTable tableP (seqOf x) = some (seqOf (permute 32 tableP x)) :=
  applyTable_seqOf tableP_shape.1 tableP_shape.2 x
theorem applyTable_PC1C (x : Block) : applyTable tablePC1C (seqOf x) = some (seqOf (permute 28 tablePC1C x)) :=
  applyTable_seqOf tablePC1C_shape.1 tablePC1C_shape.2 x
theorem applyTable_PC1D (x : Block) : applyTable tablePC1D (seqOf x) = some (seqOf (permute 28 tablePC1D x)) :=
  applyTable_seqOf tablePC1D_shape.1 tablePC1D_shape.2 x
theorem applyTable_PC2 (x : Block) : applyTable tablePC2 (seqOf x) = some (seqOf (permute 48 tablePC2 x)) :=
  applyTable_seqOf tablePC2_shape.1 tablePC2_shape.2 x

/-! ### Halves and rounds -/

@[simp] theorem append_halves (x : Block) : firstHalf x ++ secondHalf x = x := by
  unfold firstHalf secondHalf
  apply BitVec.eq_of_getLsbD_eq
  intro i hi
  rw [BitVec.getLsbD_append, BitVec.getLsbD_extractLsb', BitVec.getLsbD_extractLsb']
  by_cases h : i < 32
  · simp [h]
  · have h2 : i - 32 < 32 := by omega
    have h3 : 32 + (i - 32) = i := by omega
    simp [h, h2, h3]

@[simp] theorem firstHalf_append (a b : Word) : firstHalf (a ++ b) = a := by
  unfold firstHalf
  apply BitVec.eq_of_getLsbD_eq
  intro i hi
  rw [BitVec.getLsbD_extractLsb', BitVec.getLsbD_append]
  simp [hi]

@[simp] theorem secondHalf_append (a b : Word) : secondHalf (a ++ b) = b := by
  unfold secondHalf
  apply BitVec.eq_of_getLsbD_eq
  intro i hi
  rw [BitVec.getLsbD_extractLsb', BitVec.getLsbD_append]
  simp [hi]

@[simp] theorem runRounds_nil (h : Halves) : runRounds [] h = h := rfl
@[simp] theorem runRounds_cons (k : RoundKey) (ks : List RoundKey) (h : Halves) :
    runRounds (k :: ks) h = runRounds ks (roundOnce k h) := rfl

theorem runRounds_append (as bs : List RoundKey) (h : Halves) :
    runRounds (as ++ bs) h = runRounds bs (runRounds as h) := by
  induction as generalizing h with
  | nil => rfl
  | cons k as ih => exact ih _

@[simp] theorem length_roundKeys (build : Build) (mk : Block) (d : Direction) :
    (roundKeys build mk d).length = 16 := by
  simp [roundKeys]

theorem seqOf_halves (x : Block) : seqOf (firstHalf x) ++ seqOf (secondHalf x) = seqOf x := by
  rw [← seqOf_append, append_halves]

/-! ### The key: lengths, and the rotations on words -/

theorem length_unpackBits (bytes : List Byte) : (unpackBits bytes).length = 8 * bytes.length := by
  induction bytes with
  | nil => rfl
  | cons b bs ih =>
    simp only [unpackBits, List.flatMap_cons, List.length_append, length_seqOf, List.length_cons] at *
    omega

theorem unpackBits_append (a b : List Byte) : unpackBits (a ++ b) = unpackBits a ++ unpackBits b := by
  simp [unpackBits]

theorem length_keyContent (key : List Byte) : (keyContent key).length = 56 := by
  unfold keyContent
  simp only
  split <;> simp <;> omega

theorem length_keyGroup (key : List Byte) (g : Nat) (h : g < 8) : (keyGroup (keyContent key) g).length = 7 := by
  simp [keyGroup, length_keyContent]
  omega

theorem length_seqMasterKey (key : List Byte) : (seqMasterKey key).length = 64 := by
  have h := length_keyGroup key
  simp [seqMasterKey, List.range, List.range.loop, h]

theorem rotateLeft64_seqOf (x : Block) (n : Nat) (h : n < 64) :
    rotateLeft64 (seqOf x) n = some (seqOf (x.rotateLeft n)) := by
  simp only [rotateLeft64, rotateLeftSeq, length_seqOf, true_and]
  rw [if_pos (by omega)]
  refine congrArg some (seqOf_eq (by simp) fun i hi => ?_).symm
  rw [BitVec.getMsbD_rotateLeft, List.getD_eq_getElem?_getD]
  simp only [List.getElem?_map, List.getElem?_range hi, Option.map_some, Option.getD_some, getD_seqOf, hi, decide_true,
    Bool.true_and]
  congr 1
  omega

theorem rotateLeft28_seqOf (x : BitVec 28) (n : Nat) (h : n ≤ 28) :
    rotateLeft28 (seqOf x) n = some (seqOf (x.rotateLeft n)) := by
  simp only [rotateLeft28, rotateLeftSeq, length_seqOf, true_and]
  rw [if_pos (by omega)]
  refine congrArg some (seqOf_eq (by simp) fun i hi => ?_).symm
  rw [BitVec.getMsbD_rotateLeft, List.getD_eq_getElem?_getD]
  simp only [List.getElem?_map, List.getElem?_range hi, Option.map_some, Option.getD_some, getD_seqOf, hi, decide_true,
    Bool.true_and]
  congr 1
  omega

/-- The reverse schedule entry by entry (42_key_schedule.md R142). -/
theorem getElem_shiftRev (fwd : ShiftSchedule) (i : Fin 16) : (shiftRev fwd)[i] = fwd[15 - i.val]'(by omega) := by
  fin_cases i <;> rfl

/-! ### The S-box layer -/

theorem sboxEntry_lt (g : Fin 8) (row col : Nat) : sboxEntry g row col < 16 := by
  unfold sboxEntry
  have shape := (tableS_shape g).2
  simp only [List.all_eq_true, Bool.and_eq_true, beq_iff_eq, decide_eq_true_eq] at shape
  by_cases hr : row < (tableS g).length
  · rw [List.getD_eq_getElem _ _ hr]
    by_cases hc : col < (tableS g)[row].length
    · rw [List.getD_eq_getElem _ _ hc]
      exact (shape _ (List.getElem_mem hr)).2 _ (List.getElem_mem hc)
    · rw [List.getD_eq_default _ _ (by omega)]
      omega
  · rw [List.getD_eq_default (l := tableS g) _ (by omega)]
    simp

/-- Group `g` of the sequence is the sequence of group `g` of the word. -/
theorem seqOf_sixBits (x : BitVec 48) (g : Fin 8) : ((seqOf x).drop (6 * g.val)).take 6 = seqOf (sixBits x g) := by
  refine (seqOf_eq (by simp; omega) fun i hi => ?_).symm
  have h : 6 * g.val + i < 48 := by omega
  have h2 : 42 - 6 * g.val + (5 - i) = 47 - (6 * g.val + i) := by omega
  have h3 : 5 - i < 6 := by omega
  simp [List.getD_eq_getElem?_getD, List.getElem?_drop, hi, seqOf, h, sixBits, BitVec.getMsbD, h2, h3]

theorem seqOf_sboxLayer (x : BitVec 48) :
    seqOf (sboxLayer x) =
      seqOf (sbox 0 (sixBits x 0)) ++ (seqOf (sbox 1 (sixBits x 1)) ++ (seqOf (sbox 2 (sixBits x 2)) ++
        (seqOf (sbox 3 (sixBits x 3)) ++ (seqOf (sbox 4 (sixBits x 4)) ++ (seqOf (sbox 5 (sixBits x 5)) ++
          (seqOf (sbox 6 (sixBits x 6)) ++ seqOf (sbox 7 (sixBits x 7)))))))) := by
  have e : seqOf (sboxLayer x) = _ := seqOf_append (sbox 0 (sixBits x 0) ++ sbox 1 (sixBits x 1)
    ++ sbox 2 (sixBits x 2) ++ sbox 3 (sixBits x 3) ++ sbox 4 (sixBits x 4) ++ sbox 5 (sixBits x 5)
    ++ sbox 6 (sixBits x 6)) (sbox 7 (sixBits x 7))
  simpa only [seqOf_append, List.append_assoc] using e

end Sys2Proof.Machine
end

