-- ==== Sys2Proof/Laws/Encoding.lean ====
section
/-! SUPPORT. The small lemmas of the encoding: fields of words put together and taken apart, offsets and registers,
bytes. -/

namespace Sys2Proof

/-! ### Fields -/

theorem op_append (rsvd : BitVec 29) (op : BitVec 3) : (rsvd ++ op : BitVec 32).extractLsb' 0 3 = op := by
  apply BitVec.eq_of_getLsbD_eq
  intro i hi
  rw [BitVec.getLsbD_extractLsb', BitVec.getLsbD_append]
  simp [hi]

theorem rsvd_append (rsvd : BitVec 29) (op : BitVec 3) : (rsvd ++ op : BitVec 32).extractLsb' 3 29 = rsvd := by
  apply BitVec.eq_of_getLsbD_eq
  intro i hi
  rw [BitVec.getLsbD_extractLsb', BitVec.getLsbD_append]
  simp [hi]

/-- A command word is its two fields. -/
theorem command_fields (w : Word) : w.extractLsb' 3 29 ++ w.extractLsb' 0 3 = w := by
  apply BitVec.eq_of_getLsbD_eq
  intro i hi
  rw [BitVec.getLsbD_append, BitVec.getLsbD_extractLsb', BitVec.getLsbD_extractLsb']
  by_cases h : i < 3
  · simp [h]
  · have h2 : i - 3 < 29 := by omega
    have h3 : 3 + (i - 3) = i := by omega
    simp [h, h2, h3]

@[simp] theorem busWe_append (we : BitVec 1) (a : BitVec 8) (w : Word) :
    busWe (we ++ a ++ w) = we.getLsbD 0 := by
  unfold busWe
  rw [BitVec.getLsbD_append, BitVec.getLsbD_append]
  rfl

@[simp] theorem busAddr_append (we : BitVec 1) (a : BitVec 8) (w : Word) : busAddr (we ++ a ++ w) = a := by
  unfold busAddr
  apply BitVec.eq_of_getLsbD_eq
  intro i hi
  rw [BitVec.getLsbD_extractLsb', BitVec.getLsbD_append, BitVec.getLsbD_append]
  simp [hi]

@[simp] theorem busWdata_append (we : BitVec 1) (a : BitVec 8) (w : Word) : busWdata (we ++ a ++ w) = w := by
  unfold busWdata
  apply BitVec.eq_of_getLsbD_eq
  intro i hi
  rw [BitVec.getLsbD_extractLsb', BitVec.getLsbD_append]
  simp [hi]

/-- A transaction is its three fields. -/
theorem bus_fields (t : BitVec 41) : BitVec.ofBool (busWe t) ++ busAddr t ++ busWdata t = t := by
  unfold busWe busAddr busWdata
  apply BitVec.eq_of_getLsbD_eq
  intro i hi
  rw [BitVec.getLsbD_append, BitVec.getLsbD_append, BitVec.getLsbD_extractLsb', BitVec.getLsbD_extractLsb']
  by_cases h : i < 32
  · simp [h]
  · by_cases h2 : i < 40
    · have h3 : i - 32 < 8 := by omega
      have h4 : 32 + (i - 32) = i := by omega
      simp [h, h3, h4]
    · obtain rfl : i = 40 := by omega
      simp

theorem decodeBus_write (a : BitVec 8) (w : Word) : decodeBus (1#1 ++ a ++ w) = decodeWrite a w := by
  simp only [decodeBus, busWe_append, busAddr_append, busWdata_append]
  rfl

theorem decodeBus_read (a : BitVec 8) (w : Word) : decodeBus (0#1 ++ a ++ w) = decodeRead a := by
  simp only [decodeBus, busWe_append, busAddr_append]
  rfl

/-! ### Offsets -/

@[simp] theorem selectRegister_offset (reg : RegName) : selectRegister reg.offset = some reg := by
  cases reg <;> decide

theorem selectRegister_none {a : BitVec 8} : selectRegister a = none ↔ offsetSelects a = false := by
  revert a; decide

theorem offset_of_selectRegister {a : BitVec 8} {reg : RegName} (h : selectRegister a = some reg) :
    a = reg.offset := by
  have all : ∀ a : BitVec 8, ∀ reg ∈ selectRegister a, a = reg.offset := by decide
  exact all a reg h

/-! ### Bytes -/

theorem natOfBytes_four (v : Nat) (h : v < 2 ^ 32) : natOfBytes (bytesOfNat 4 v) = v := by
  simp [natOfBytes, bytesOfNat, List.range, List.range.loop, Nat.shiftRight_eq_div_pow]
  omega

theorem natOfBytes_six (v : Nat) (h : v < 2 ^ 48) : natOfBytes (bytesOfNat 6 v) = v := by
  simp [natOfBytes, bytesOfNat, List.range, List.range.loop, Nat.shiftRight_eq_div_pow]
  omega

@[simp] theorem length_bytesOfNat (n v : Nat) : (bytesOfNat n v).length = n := by simp [bytesOfNat]

end Sys2Proof
end

