-- ==== Sys2Proof/Laws/State.lean ====
section
/-! SUPPORT. One lemma per field per update of the state, so that no later proof unfolds a record update. -/

namespace Sys2Proof.Machine

@[simp] theorem raise_key0 (e : ErrorKind) (s : State) : (raise e s).key0 = s.key0 := rfl
@[simp] theorem raise_key1 (e : ErrorKind) (s : State) : (raise e s).key1 = s.key1 := rfl
@[simp] theorem raise_keylen (e : ErrorKind) (s : State) : (raise e s).keylen = s.keylen := rfl
@[simp] theorem raise_din0 (e : ErrorKind) (s : State) : (raise e s).din0 = s.din0 := rfl
@[simp] theorem raise_din1 (e : ErrorKind) (s : State) : (raise e s).din1 = s.din1 := rfl
@[simp] theorem raise_dout0 (e : ErrorKind) (s : State) : (raise e s).dout0 = s.dout0 := rfl
@[simp] theorem raise_dout1 (e : ErrorKind) (s : State) : (raise e s).dout1 = s.dout1 := rfl
@[simp] theorem raise_masterKey (e : ErrorKind) (s : State) : (raise e s).masterKey = s.masterKey := rfl
@[simp] theorem raise_l (e : ErrorKind) (s : State) : (raise e s).l = s.l := rfl
@[simp] theorem raise_r (e : ErrorKind) (s : State) : (raise e s).r = s.r := rfl
@[simp] theorem raise_busy (e : ErrorKind) (s : State) : (raise e s).busy = s.busy := rfl
@[simp] theorem raise_done (e : ErrorKind) (s : State) : (raise e s).done = s.done := rfl
@[simp] theorem raise_keyValid (e : ErrorKind) (s : State) : (raise e s).keyValid = s.keyValid := rfl
@[simp] theorem raise_errEmptyKey (e : ErrorKind) (s : State) : (raise e s).errEmptyKey = (s.errEmptyKey || e == .emptyKey) := rfl
@[simp] theorem raise_errNoKey (e : ErrorKind) (s : State) : (raise e s).errNoKey = (s.errNoKey || e == .noKey) := rfl
@[simp] theorem raise_errBusy (e : ErrorKind) (s : State) : (raise e s).errBusy = (s.errBusy || e == .busyViolation) := rfl
@[simp] theorem raise_errIllegal (e : ErrorKind) (s : State) : (raise e s).errIllegal = (s.errIllegal || e == .illegalCommand) := rfl
@[simp] theorem raise_dir (e : ErrorKind) (s : State) : (raise e s).dir = s.dir := rfl
@[simp] theorem raise_round (e : ErrorKind) (s : State) : (raise e s).round = s.round := rfl
@[simp] theorem raise_build (e : ErrorKind) (s : State) : (raise e s).build = s.build := rfl
@[simp] theorem raise_inputs (e : ErrorKind) (s : State) : (raise e s).inputs = s.inputs := rfl
@[simp] theorem raise_responses (e : ErrorKind) (s : State) : (raise e s).responses = s.responses := rfl

@[simp] theorem clearErrors_key0 (s : State) : (clearErrors s).key0 = s.key0 := rfl
@[simp] theorem clearErrors_key1 (s : State) : (clearErrors s).key1 = s.key1 := rfl
@[simp] theorem clearErrors_keylen (s : State) : (clearErrors s).keylen = s.keylen := rfl
@[simp] theorem clearErrors_din0 (s : State) : (clearErrors s).din0 = s.din0 := rfl
@[simp] theorem clearErrors_din1 (s : State) : (clearErrors s).din1 = s.din1 := rfl
@[simp] theorem clearErrors_dout0 (s : State) : (clearErrors s).dout0 = s.dout0 := rfl
@[simp] theorem clearErrors_dout1 (s : State) : (clearErrors s).dout1 = s.dout1 := rfl
@[simp] theorem clearErrors_masterKey (s : State) : (clearErrors s).masterKey = s.masterKey := rfl
@[simp] theorem clearErrors_l (s : State) : (clearErrors s).l = s.l := rfl
@[simp] theorem clearErrors_r (s : State) : (clearErrors s).r = s.r := rfl
@[simp] theorem clearErrors_busy (s : State) : (clearErrors s).busy = s.busy := rfl
@[simp] theorem clearErrors_done (s : State) : (clearErrors s).done = s.done := rfl
@[simp] theorem clearErrors_keyValid (s : State) : (clearErrors s).keyValid = s.keyValid := rfl
@[simp] theorem clearErrors_errEmptyKey (s : State) : (clearErrors s).errEmptyKey = false := rfl
@[simp] theorem clearErrors_errNoKey (s : State) : (clearErrors s).errNoKey = false := rfl
@[simp] theorem clearErrors_errBusy (s : State) : (clearErrors s).errBusy = false := rfl
@[simp] theorem clearErrors_errIllegal (s : State) : (clearErrors s).errIllegal = false := rfl
@[simp] theorem clearErrors_dir (s : State) : (clearErrors s).dir = s.dir := rfl
@[simp] theorem clearErrors_round (s : State) : (clearErrors s).round = s.round := rfl
@[simp] theorem clearErrors_build (s : State) : (clearErrors s).build = s.build := rfl
@[simp] theorem clearErrors_inputs (s : State) : (clearErrors s).inputs = s.inputs := rfl
@[simp] theorem clearErrors_responses (s : State) : (clearErrors s).responses = s.responses := rfl

@[simp] theorem dropKeyValid_key0 (s : State) : (dropKeyValid s).key0 = s.key0 := rfl
@[simp] theorem dropKeyValid_key1 (s : State) : (dropKeyValid s).key1 = s.key1 := rfl
@[simp] theorem dropKeyValid_keylen (s : State) : (dropKeyValid s).keylen = s.keylen := rfl
@[simp] theorem dropKeyValid_din0 (s : State) : (dropKeyValid s).din0 = s.din0 := rfl
@[simp] theorem dropKeyValid_din1 (s : State) : (dropKeyValid s).din1 = s.din1 := rfl
@[simp] theorem dropKeyValid_dout0 (s : State) : (dropKeyValid s).dout0 = s.dout0 := rfl
@[simp] theorem dropKeyValid_dout1 (s : State) : (dropKeyValid s).dout1 = s.dout1 := rfl
@[simp] theorem dropKeyValid_masterKey (s : State) : (dropKeyValid s).masterKey = s.masterKey := rfl
@[simp] theorem dropKeyValid_l (s : State) : (dropKeyValid s).l = s.l := rfl
@[simp] theorem dropKeyValid_r (s : State) : (dropKeyValid s).r = s.r := rfl
@[simp] theorem dropKeyValid_busy (s : State) : (dropKeyValid s).busy = s.busy := rfl
@[simp] theorem dropKeyValid_done (s : State) : (dropKeyValid s).done = s.done := rfl
@[simp] theorem dropKeyValid_keyValid (s : State) : (dropKeyValid s).keyValid = false := rfl
@[simp] theorem dropKeyValid_errEmptyKey (s : State) : (dropKeyValid s).errEmptyKey = s.errEmptyKey := rfl
@[simp] theorem dropKeyValid_errNoKey (s : State) : (dropKeyValid s).errNoKey = s.errNoKey := rfl
@[simp] theorem dropKeyValid_errBusy (s : State) : (dropKeyValid s).errBusy = s.errBusy := rfl
@[simp] theorem dropKeyValid_errIllegal (s : State) : (dropKeyValid s).errIllegal = s.errIllegal := rfl
@[simp] theorem dropKeyValid_dir (s : State) : (dropKeyValid s).dir = s.dir := rfl
@[simp] theorem dropKeyValid_round (s : State) : (dropKeyValid s).round = s.round := rfl
@[simp] theorem dropKeyValid_build (s : State) : (dropKeyValid s).build = s.build := rfl
@[simp] theorem dropKeyValid_inputs (s : State) : (dropKeyValid s).inputs = s.inputs := rfl
@[simp] theorem dropKeyValid_responses (s : State) : (dropKeyValid s).responses = s.responses := rfl

@[simp] theorem loadMasterKey_key0 (mk : Block) (s : State) : (loadMasterKey mk s).key0 = s.key0 := rfl
@[simp] theorem loadMasterKey_key1 (mk : Block) (s : State) : (loadMasterKey mk s).key1 = s.key1 := rfl
@[simp] theorem loadMasterKey_keylen (mk : Block) (s : State) : (loadMasterKey mk s).keylen = s.keylen := rfl
@[simp] theorem loadMasterKey_din0 (mk : Block) (s : State) : (loadMasterKey mk s).din0 = s.din0 := rfl
@[simp] theorem loadMasterKey_din1 (mk : Block) (s : State) : (loadMasterKey mk s).din1 = s.din1 := rfl
@[simp] theorem loadMasterKey_dout0 (mk : Block) (s : State) : (loadMasterKey mk s).dout0 = s.dout0 := rfl
@[simp] theorem loadMasterKey_dout1 (mk : Block) (s : State) : (loadMasterKey mk s).dout1 = s.dout1 := rfl
@[simp] theorem loadMasterKey_masterKey (mk : Block) (s : State) : (loadMasterKey mk s).masterKey = mk := rfl
@[simp] theorem loadMasterKey_l (mk : Block) (s : State) : (loadMasterKey mk s).l = s.l := rfl
@[simp] theorem loadMasterKey_r (mk : Block) (s : State) : (loadMasterKey mk s).r = s.r := rfl
@[simp] theorem loadMasterKey_busy (mk : Block) (s : State) : (loadMasterKey mk s).busy = s.busy := rfl
@[simp] theorem loadMasterKey_done (mk : Block) (s : State) : (loadMasterKey mk s).done = s.done := rfl
@[simp] theorem loadMasterKey_keyValid (mk : Block) (s : State) : (loadMasterKey mk s).keyValid = true := rfl
@[simp] theorem loadMasterKey_errEmptyKey (mk : Block) (s : State) : (loadMasterKey mk s).errEmptyKey = s.errEmptyKey := rfl
@[simp] theorem loadMasterKey_errNoKey (mk : Block) (s : State) : (loadMasterKey mk s).errNoKey = s.errNoKey := rfl
@[simp] theorem loadMasterKey_errBusy (mk : Block) (s : State) : (loadMasterKey mk s).errBusy = s.errBusy := rfl
@[simp] theorem loadMasterKey_errIllegal (mk : Block) (s : State) : (loadMasterKey mk s).errIllegal = s.errIllegal := rfl
@[simp] theorem loadMasterKey_dir (mk : Block) (s : State) : (loadMasterKey mk s).dir = s.dir := rfl
@[simp] theorem loadMasterKey_round (mk : Block) (s : State) : (loadMasterKey mk s).round = s.round := rfl
@[simp] theorem loadMasterKey_build (mk : Block) (s : State) : (loadMasterKey mk s).build = s.build := rfl
@[simp] theorem loadMasterKey_inputs (mk : Block) (s : State) : (loadMasterKey mk s).inputs = s.inputs := rfl
@[simp] theorem loadMasterKey_responses (mk : Block) (s : State) : (loadMasterKey mk s).responses = s.responses := rfl

@[simp] theorem accept_key0 (d : Direction) (s : State) : (accept d s).key0 = s.key0 := rfl
@[simp] theorem accept_key1 (d : Direction) (s : State) : (accept d s).key1 = s.key1 := rfl
@[simp] theorem accept_keylen (d : Direction) (s : State) : (accept d s).keylen = s.keylen := rfl
@[simp] theorem accept_din0 (d : Direction) (s : State) : (accept d s).din0 = s.din0 := rfl
@[simp] theorem accept_din1 (d : Direction) (s : State) : (accept d s).din1 = s.din1 := rfl
@[simp] theorem accept_dout0 (d : Direction) (s : State) : (accept d s).dout0 = s.dout0 := rfl
@[simp] theorem accept_dout1 (d : Direction) (s : State) : (accept d s).dout1 = s.dout1 := rfl
@[simp] theorem accept_masterKey (d : Direction) (s : State) : (accept d s).masterKey = s.masterKey := rfl
@[simp] theorem accept_l (d : Direction) (s : State) : (accept d s).l = (initialHalves (inputBlock s)).1 := rfl
@[simp] theorem accept_r (d : Direction) (s : State) : (accept d s).r = (initialHalves (inputBlock s)).2 := rfl
@[simp] theorem accept_busy (d : Direction) (s : State) : (accept d s).busy = true := rfl
@[simp] theorem accept_done (d : Direction) (s : State) : (accept d s).done = false := rfl
@[simp] theorem accept_keyValid (d : Direction) (s : State) : (accept d s).keyValid = s.keyValid := rfl
@[simp] theorem accept_errEmptyKey (d : Direction) (s : State) : (accept d s).errEmptyKey = s.errEmptyKey := rfl
@[simp] theorem accept_errNoKey (d : Direction) (s : State) : (accept d s).errNoKey = s.errNoKey := rfl
@[simp] theorem accept_errBusy (d : Direction) (s : State) : (accept d s).errBusy = s.errBusy := rfl
@[simp] theorem accept_errIllegal (d : Direction) (s : State) : (accept d s).errIllegal = s.errIllegal := rfl
@[simp] theorem accept_dir (d : Direction) (s : State) : (accept d s).dir = d := rfl
@[simp] theorem accept_round (d : Direction) (s : State) : (accept d s).round = 0 := rfl
@[simp] theorem accept_build (d : Direction) (s : State) : (accept d s).build = s.build := rfl
@[simp] theorem accept_inputs (d : Direction) (s : State) : (accept d s).inputs = s.inputs := rfl
@[simp] theorem accept_responses (d : Direction) (s : State) : (accept d s).responses = s.responses := rfl

@[simp] theorem advanceRound_key0 (k : RoundKey) (s : State) : (advanceRound k s).key0 = s.key0 := rfl
@[simp] theorem advanceRound_key1 (k : RoundKey) (s : State) : (advanceRound k s).key1 = s.key1 := rfl
@[simp] theorem advanceRound_keylen (k : RoundKey) (s : State) : (advanceRound k s).keylen = s.keylen := rfl
@[simp] theorem advanceRound_din0 (k : RoundKey) (s : State) : (advanceRound k s).din0 = s.din0 := rfl
@[simp] theorem advanceRound_din1 (k : RoundKey) (s : State) : (advanceRound k s).din1 = s.din1 := rfl
@[simp] theorem advanceRound_dout0 (k : RoundKey) (s : State) : (advanceRound k s).dout0 = s.dout0 := rfl
@[simp] theorem advanceRound_dout1 (k : RoundKey) (s : State) : (advanceRound k s).dout1 = s.dout1 := rfl
@[simp] theorem advanceRound_masterKey (k : RoundKey) (s : State) : (advanceRound k s).masterKey = s.masterKey := rfl
@[simp] theorem advanceRound_l (k : RoundKey) (s : State) : (advanceRound k s).l = (roundOnce k (s.l, s.r)).1 := rfl
@[simp] theorem advanceRound_r (k : RoundKey) (s : State) : (advanceRound k s).r = (roundOnce k (s.l, s.r)).2 := rfl
@[simp] theorem advanceRound_busy (k : RoundKey) (s : State) : (advanceRound k s).busy = s.busy := rfl
@[simp] theorem advanceRound_done (k : RoundKey) (s : State) : (advanceRound k s).done = s.done := rfl
@[simp] theorem advanceRound_keyValid (k : RoundKey) (s : State) : (advanceRound k s).keyValid = s.keyValid := rfl
@[simp] theorem advanceRound_errEmptyKey (k : RoundKey) (s : State) : (advanceRound k s).errEmptyKey = s.errEmptyKey := rfl
@[simp] theorem advanceRound_errNoKey (k : RoundKey) (s : State) : (advanceRound k s).errNoKey = s.errNoKey := rfl
@[simp] theorem advanceRound_errBusy (k : RoundKey) (s : State) : (advanceRound k s).errBusy = s.errBusy := rfl
@[simp] theorem advanceRound_errIllegal (k : RoundKey) (s : State) : (advanceRound k s).errIllegal = s.errIllegal := rfl
@[simp] theorem advanceRound_dir (k : RoundKey) (s : State) : (advanceRound k s).dir = s.dir := rfl
@[simp] theorem advanceRound_round (k : RoundKey) (s : State) : (advanceRound k s).round = s.round + 1 := rfl
@[simp] theorem advanceRound_build (k : RoundKey) (s : State) : (advanceRound k s).build = s.build := rfl
@[simp] theorem advanceRound_inputs (k : RoundKey) (s : State) : (advanceRound k s).inputs = s.inputs := rfl
@[simp] theorem advanceRound_responses (k : RoundKey) (s : State) : (advanceRound k s).responses = s.responses := rfl

@[simp] theorem completeBlock_key0 (s : State) : (completeBlock s).key0 = s.key0 := rfl
@[simp] theorem completeBlock_key1 (s : State) : (completeBlock s).key1 = s.key1 := rfl
@[simp] theorem completeBlock_keylen (s : State) : (completeBlock s).keylen = s.keylen := rfl
@[simp] theorem completeBlock_din0 (s : State) : (completeBlock s).din0 = s.din0 := rfl
@[simp] theorem completeBlock_din1 (s : State) : (completeBlock s).din1 = s.din1 := rfl
@[simp] theorem completeBlock_dout0 (s : State) : (completeBlock s).dout0 = firstHalf (finalBlock (s.l, s.r)) := rfl
@[simp] theorem completeBlock_dout1 (s : State) : (completeBlock s).dout1 = secondHalf (finalBlock (s.l, s.r)) := rfl
@[simp] theorem completeBlock_masterKey (s : State) : (completeBlock s).masterKey = s.masterKey := rfl
@[simp] theorem completeBlock_l (s : State) : (completeBlock s).l = s.l := rfl
@[simp] theorem completeBlock_r (s : State) : (completeBlock s).r = s.r := rfl
@[simp] theorem completeBlock_busy (s : State) : (completeBlock s).busy = false := rfl
@[simp] theorem completeBlock_done (s : State) : (completeBlock s).done = true := rfl
@[simp] theorem completeBlock_keyValid (s : State) : (completeBlock s).keyValid = s.keyValid := rfl
@[simp] theorem completeBlock_errEmptyKey (s : State) : (completeBlock s).errEmptyKey = s.errEmptyKey := rfl
@[simp] theorem completeBlock_errNoKey (s : State) : (completeBlock s).errNoKey = s.errNoKey := rfl
@[simp] theorem completeBlock_errBusy (s : State) : (completeBlock s).errBusy = s.errBusy := rfl
@[simp] theorem completeBlock_errIllegal (s : State) : (completeBlock s).errIllegal = s.errIllegal := rfl
@[simp] theorem completeBlock_dir (s : State) : (completeBlock s).dir = s.dir := rfl
@[simp] theorem completeBlock_round (s : State) : (completeBlock s).round = s.round := rfl
@[simp] theorem completeBlock_build (s : State) : (completeBlock s).build = s.build := rfl
@[simp] theorem completeBlock_inputs (s : State) : (completeBlock s).inputs = s.inputs := rfl
@[simp] theorem completeBlock_responses (s : State) : (completeBlock s).responses = s.responses := rfl

@[simp] theorem respond_key0 (v : Word) (s : State) : (respond v s).key0 = s.key0 := rfl
@[simp] theorem respond_key1 (v : Word) (s : State) : (respond v s).key1 = s.key1 := rfl
@[simp] theorem respond_keylen (v : Word) (s : State) : (respond v s).keylen = s.keylen := rfl
@[simp] theorem respond_din0 (v : Word) (s : State) : (respond v s).din0 = s.din0 := rfl
@[simp] theorem respond_din1 (v : Word) (s : State) : (respond v s).din1 = s.din1 := rfl
@[simp] theorem respond_dout0 (v : Word) (s : State) : (respond v s).dout0 = s.dout0 := rfl
@[simp] theorem respond_dout1 (v : Word) (s : State) : (respond v s).dout1 = s.dout1 := rfl
@[simp] theorem respond_masterKey (v : Word) (s : State) : (respond v s).masterKey = s.masterKey := rfl
@[simp] theorem respond_l (v : Word) (s : State) : (respond v s).l = s.l := rfl
@[simp] theorem respond_r (v : Word) (s : State) : (respond v s).r = s.r := rfl
@[simp] theorem respond_busy (v : Word) (s : State) : (respond v s).busy = s.busy := rfl
@[simp] theorem respond_done (v : Word) (s : State) : (respond v s).done = s.done := rfl
@[simp] theorem respond_keyValid (v : Word) (s : State) : (respond v s).keyValid = s.keyValid := rfl
@[simp] theorem respond_errEmptyKey (v : Word) (s : State) : (respond v s).errEmptyKey = s.errEmptyKey := rfl
@[simp] theorem respond_errNoKey (v : Word) (s : State) : (respond v s).errNoKey = s.errNoKey := rfl
@[simp] theorem respond_errBusy (v : Word) (s : State) : (respond v s).errBusy = s.errBusy := rfl
@[simp] theorem respond_errIllegal (v : Word) (s : State) : (respond v s).errIllegal = s.errIllegal := rfl
@[simp] theorem respond_dir (v : Word) (s : State) : (respond v s).dir = s.dir := rfl
@[simp] theorem respond_round (v : Word) (s : State) : (respond v s).round = s.round := rfl
@[simp] theorem respond_build (v : Word) (s : State) : (respond v s).build = s.build := rfl
@[simp] theorem respond_inputs (v : Word) (s : State) : (respond v s).inputs = s.inputs := rfl
@[simp] theorem respond_responses (v : Word) (s : State) : (respond v s).responses = v :: s.responses := rfl

@[simp] theorem setKey0_key0 (w : Word) (s : State) : (setKey0 w s).key0 = w := rfl
@[simp] theorem setKey0_key1 (w : Word) (s : State) : (setKey0 w s).key1 = s.key1 := rfl
@[simp] theorem setKey0_keylen (w : Word) (s : State) : (setKey0 w s).keylen = s.keylen := rfl
@[simp] theorem setKey0_din0 (w : Word) (s : State) : (setKey0 w s).din0 = s.din0 := rfl
@[simp] theorem setKey0_din1 (w : Word) (s : State) : (setKey0 w s).din1 = s.din1 := rfl
@[simp] theorem setKey0_dout0 (w : Word) (s : State) : (setKey0 w s).dout0 = s.dout0 := rfl
@[simp] theorem setKey0_dout1 (w : Word) (s : State) : (setKey0 w s).dout1 = s.dout1 := rfl
@[simp] theorem setKey0_masterKey (w : Word) (s : State) : (setKey0 w s).masterKey = s.masterKey := rfl
@[simp] theorem setKey0_l (w : Word) (s : State) : (setKey0 w s).l = s.l := rfl
@[simp] theorem setKey0_r (w : Word) (s : State) : (setKey0 w s).r = s.r := rfl
@[simp] theorem setKey0_busy (w : Word) (s : State) : (setKey0 w s).busy = s.busy := rfl
@[simp] theorem setKey0_done (w : Word) (s : State) : (setKey0 w s).done = s.done := rfl
@[simp] theorem setKey0_keyValid (w : Word) (s : State) : (setKey0 w s).keyValid = s.keyValid := rfl
@[simp] theorem setKey0_errEmptyKey (w : Word) (s : State) : (setKey0 w s).errEmptyKey = s.errEmptyKey := rfl
@[simp] theorem setKey0_errNoKey (w : Word) (s : State) : (setKey0 w s).errNoKey = s.errNoKey := rfl
@[simp] theorem setKey0_errBusy (w : Word) (s : State) : (setKey0 w s).errBusy = s.errBusy := rfl
@[simp] theorem setKey0_errIllegal (w : Word) (s : State) : (setKey0 w s).errIllegal = s.errIllegal := rfl
@[simp] theorem setKey0_dir (w : Word) (s : State) : (setKey0 w s).dir = s.dir := rfl
@[simp] theorem setKey0_round (w : Word) (s : State) : (setKey0 w s).round = s.round := rfl
@[simp] theorem setKey0_build (w : Word) (s : State) : (setKey0 w s).build = s.build := rfl
@[simp] theorem setKey0_inputs (w : Word) (s : State) : (setKey0 w s).inputs = s.inputs := rfl
@[simp] theorem setKey0_responses (w : Word) (s : State) : (setKey0 w s).responses = s.responses := rfl

@[simp] theorem setKey1_key0 (w : Word) (s : State) : (setKey1 w s).key0 = s.key0 := rfl
@[simp] theorem setKey1_key1 (w : Word) (s : State) : (setKey1 w s).key1 = w := rfl
@[simp] theorem setKey1_keylen (w : Word) (s : State) : (setKey1 w s).keylen = s.keylen := rfl
@[simp] theorem setKey1_din0 (w : Word) (s : State) : (setKey1 w s).din0 = s.din0 := rfl
@[simp] theorem setKey1_din1 (w : Word) (s : State) : (setKey1 w s).din1 = s.din1 := rfl
@[simp] theorem setKey1_dout0 (w : Word) (s : State) : (setKey1 w s).dout0 = s.dout0 := rfl
@[simp] theorem setKey1_dout1 (w : Word) (s : State) : (setKey1 w s).dout1 = s.dout1 := rfl
@[simp] theorem setKey1_masterKey (w : Word) (s : State) : (setKey1 w s).masterKey = s.masterKey := rfl
@[simp] theorem setKey1_l (w : Word) (s : State) : (setKey1 w s).l = s.l := rfl
@[simp] theorem setKey1_r (w : Word) (s : State) : (setKey1 w s).r = s.r := rfl
@[simp] theorem setKey1_busy (w : Word) (s : State) : (setKey1 w s).busy = s.busy := rfl
@[simp] theorem setKey1_done (w : Word) (s : State) : (setKey1 w s).done = s.done := rfl
@[simp] theorem setKey1_keyValid (w : Word) (s : State) : (setKey1 w s).keyValid = s.keyValid := rfl
@[simp] theorem setKey1_errEmptyKey (w : Word) (s : State) : (setKey1 w s).errEmptyKey = s.errEmptyKey := rfl
@[simp] theorem setKey1_errNoKey (w : Word) (s : State) : (setKey1 w s).errNoKey = s.errNoKey := rfl
@[simp] theorem setKey1_errBusy (w : Word) (s : State) : (setKey1 w s).errBusy = s.errBusy := rfl
@[simp] theorem setKey1_errIllegal (w : Word) (s : State) : (setKey1 w s).errIllegal = s.errIllegal := rfl
@[simp] theorem setKey1_dir (w : Word) (s : State) : (setKey1 w s).dir = s.dir := rfl
@[simp] theorem setKey1_round (w : Word) (s : State) : (setKey1 w s).round = s.round := rfl
@[simp] theorem setKey1_build (w : Word) (s : State) : (setKey1 w s).build = s.build := rfl
@[simp] theorem setKey1_inputs (w : Word) (s : State) : (setKey1 w s).inputs = s.inputs := rfl
@[simp] theorem setKey1_responses (w : Word) (s : State) : (setKey1 w s).responses = s.responses := rfl

@[simp] theorem setKeylen_key0 (w : Word) (s : State) : (setKeylen w s).key0 = s.key0 := rfl
@[simp] theorem setKeylen_key1 (w : Word) (s : State) : (setKeylen w s).key1 = s.key1 := rfl
@[simp] theorem setKeylen_keylen (w : Word) (s : State) : (setKeylen w s).keylen = w.extractLsb' 0 8 := rfl
@[simp] theorem setKeylen_din0 (w : Word) (s : State) : (setKeylen w s).din0 = s.din0 := rfl
@[simp] theorem setKeylen_din1 (w : Word) (s : State) : (setKeylen w s).din1 = s.din1 := rfl
@[simp] theorem setKeylen_dout0 (w : Word) (s : State) : (setKeylen w s).dout0 = s.dout0 := rfl
@[simp] theorem setKeylen_dout1 (w : Word) (s : State) : (setKeylen w s).dout1 = s.dout1 := rfl
@[simp] theorem setKeylen_masterKey (w : Word) (s : State) : (setKeylen w s).masterKey = s.masterKey := rfl
@[simp] theorem setKeylen_l (w : Word) (s : State) : (setKeylen w s).l = s.l := rfl
@[simp] theorem setKeylen_r (w : Word) (s : State) : (setKeylen w s).r = s.r := rfl
@[simp] theorem setKeylen_busy (w : Word) (s : State) : (setKeylen w s).busy = s.busy := rfl
@[simp] theorem setKeylen_done (w : Word) (s : State) : (setKeylen w s).done = s.done := rfl
@[simp] theorem setKeylen_keyValid (w : Word) (s : State) : (setKeylen w s).keyValid = s.keyValid := rfl
@[simp] theorem setKeylen_errEmptyKey (w : Word) (s : State) : (setKeylen w s).errEmptyKey = s.errEmptyKey := rfl
@[simp] theorem setKeylen_errNoKey (w : Word) (s : State) : (setKeylen w s).errNoKey = s.errNoKey := rfl
@[simp] theorem setKeylen_errBusy (w : Word) (s : State) : (setKeylen w s).errBusy = s.errBusy := rfl
@[simp] theorem setKeylen_errIllegal (w : Word) (s : State) : (setKeylen w s).errIllegal = s.errIllegal := rfl
@[simp] theorem setKeylen_dir (w : Word) (s : State) : (setKeylen w s).dir = s.dir := rfl
@[simp] theorem setKeylen_round (w : Word) (s : State) : (setKeylen w s).round = s.round := rfl
@[simp] theorem setKeylen_build (w : Word) (s : State) : (setKeylen w s).build = s.build := rfl
@[simp] theorem setKeylen_inputs (w : Word) (s : State) : (setKeylen w s).inputs = s.inputs := rfl
@[simp] theorem setKeylen_responses (w : Word) (s : State) : (setKeylen w s).responses = s.responses := rfl

@[simp] theorem setDin0_key0 (w : Word) (s : State) : (setDin0 w s).key0 = s.key0 := rfl
@[simp] theorem setDin0_key1 (w : Word) (s : State) : (setDin0 w s).key1 = s.key1 := rfl
@[simp] theorem setDin0_keylen (w : Word) (s : State) : (setDin0 w s).keylen = s.keylen := rfl
@[simp] theorem setDin0_din0 (w : Word) (s : State) : (setDin0 w s).din0 = w := rfl
@[simp] theorem setDin0_din1 (w : Word) (s : State) : (setDin0 w s).din1 = s.din1 := rfl
@[simp] theorem setDin0_dout0 (w : Word) (s : State) : (setDin0 w s).dout0 = s.dout0 := rfl
@[simp] theorem setDin0_dout1 (w : Word) (s : State) : (setDin0 w s).dout1 = s.dout1 := rfl
@[simp] theorem setDin0_masterKey (w : Word) (s : State) : (setDin0 w s).masterKey = s.masterKey := rfl
@[simp] theorem setDin0_l (w : Word) (s : State) : (setDin0 w s).l = s.l := rfl
@[simp] theorem setDin0_r (w : Word) (s : State) : (setDin0 w s).r = s.r := rfl
@[simp] theorem setDin0_busy (w : Word) (s : State) : (setDin0 w s).busy = s.busy := rfl
@[simp] theorem setDin0_done (w : Word) (s : State) : (setDin0 w s).done = s.done := rfl
@[simp] theorem setDin0_keyValid (w : Word) (s : State) : (setDin0 w s).keyValid = s.keyValid := rfl
@[simp] theorem setDin0_errEmptyKey (w : Word) (s : State) : (setDin0 w s).errEmptyKey = s.errEmptyKey := rfl
@[simp] theorem setDin0_errNoKey (w : Word) (s : State) : (setDin0 w s).errNoKey = s.errNoKey := rfl
@[simp] theorem setDin0_errBusy (w : Word) (s : State) : (setDin0 w s).errBusy = s.errBusy := rfl
@[simp] theorem setDin0_errIllegal (w : Word) (s : State) : (setDin0 w s).errIllegal = s.errIllegal := rfl
@[simp] theorem setDin0_dir (w : Word) (s : State) : (setDin0 w s).dir = s.dir := rfl
@[simp] theorem setDin0_round (w : Word) (s : State) : (setDin0 w s).round = s.round := rfl
@[simp] theorem setDin0_build (w : Word) (s : State) : (setDin0 w s).build = s.build := rfl
@[simp] theorem setDin0_inputs (w : Word) (s : State) : (setDin0 w s).inputs = s.inputs := rfl
@[simp] theorem setDin0_responses (w : Word) (s : State) : (setDin0 w s).responses = s.responses := rfl

@[simp] theorem setDin1_key0 (w : Word) (s : State) : (setDin1 w s).key0 = s.key0 := rfl
@[simp] theorem setDin1_key1 (w : Word) (s : State) : (setDin1 w s).key1 = s.key1 := rfl
@[simp] theorem setDin1_keylen (w : Word) (s : State) : (setDin1 w s).keylen = s.keylen := rfl
@[simp] theorem setDin1_din0 (w : Word) (s : State) : (setDin1 w s).din0 = s.din0 := rfl
@[simp] theorem setDin1_din1 (w : Word) (s : State) : (setDin1 w s).din1 = w := rfl
@[simp] theorem setDin1_dout0 (w : Word) (s : State) : (setDin1 w s).dout0 = s.dout0 := rfl
@[simp] theorem setDin1_dout1 (w : Word) (s : State) : (setDin1 w s).dout1 = s.dout1 := rfl
@[simp] theorem setDin1_masterKey (w : Word) (s : State) : (setDin1 w s).masterKey = s.masterKey := rfl
@[simp] theorem setDin1_l (w : Word) (s : State) : (setDin1 w s).l = s.l := rfl
@[simp] theorem setDin1_r (w : Word) (s : State) : (setDin1 w s).r = s.r := rfl
@[simp] theorem setDin1_busy (w : Word) (s : State) : (setDin1 w s).busy = s.busy := rfl
@[simp] theorem setDin1_done (w : Word) (s : State) : (setDin1 w s).done = s.done := rfl
@[simp] theorem setDin1_keyValid (w : Word) (s : State) : (setDin1 w s).keyValid = s.keyValid := rfl
@[simp] theorem setDin1_errEmptyKey (w : Word) (s : State) : (setDin1 w s).errEmptyKey = s.errEmptyKey := rfl
@[simp] theorem setDin1_errNoKey (w : Word) (s : State) : (setDin1 w s).errNoKey = s.errNoKey := rfl
@[simp] theorem setDin1_errBusy (w : Word) (s : State) : (setDin1 w s).errBusy = s.errBusy := rfl
@[simp] theorem setDin1_errIllegal (w : Word) (s : State) : (setDin1 w s).errIllegal = s.errIllegal := rfl
@[simp] theorem setDin1_dir (w : Word) (s : State) : (setDin1 w s).dir = s.dir := rfl
@[simp] theorem setDin1_round (w : Word) (s : State) : (setDin1 w s).round = s.round := rfl
@[simp] theorem setDin1_build (w : Word) (s : State) : (setDin1 w s).build = s.build := rfl
@[simp] theorem setDin1_inputs (w : Word) (s : State) : (setDin1 w s).inputs = s.inputs := rfl
@[simp] theorem setDin1_responses (w : Word) (s : State) : (setDin1 w s).responses = s.responses := rfl

@[simp] theorem dropInput_key0 (s : State) : (dropInput s).key0 = s.key0 := rfl
@[simp] theorem dropInput_key1 (s : State) : (dropInput s).key1 = s.key1 := rfl
@[simp] theorem dropInput_keylen (s : State) : (dropInput s).keylen = s.keylen := rfl
@[simp] theorem dropInput_din0 (s : State) : (dropInput s).din0 = s.din0 := rfl
@[simp] theorem dropInput_din1 (s : State) : (dropInput s).din1 = s.din1 := rfl
@[simp] theorem dropInput_dout0 (s : State) : (dropInput s).dout0 = s.dout0 := rfl
@[simp] theorem dropInput_dout1 (s : State) : (dropInput s).dout1 = s.dout1 := rfl
@[simp] theorem dropInput_masterKey (s : State) : (dropInput s).masterKey = s.masterKey := rfl
@[simp] theorem dropInput_l (s : State) : (dropInput s).l = s.l := rfl
@[simp] theorem dropInput_r (s : State) : (dropInput s).r = s.r := rfl
@[simp] theorem dropInput_busy (s : State) : (dropInput s).busy = s.busy := rfl
@[simp] theorem dropInput_done (s : State) : (dropInput s).done = s.done := rfl
@[simp] theorem dropInput_keyValid (s : State) : (dropInput s).keyValid = s.keyValid := rfl
@[simp] theorem dropInput_errEmptyKey (s : State) : (dropInput s).errEmptyKey = s.errEmptyKey := rfl
@[simp] theorem dropInput_errNoKey (s : State) : (dropInput s).errNoKey = s.errNoKey := rfl
@[simp] theorem dropInput_errBusy (s : State) : (dropInput s).errBusy = s.errBusy := rfl
@[simp] theorem dropInput_errIllegal (s : State) : (dropInput s).errIllegal = s.errIllegal := rfl
@[simp] theorem dropInput_dir (s : State) : (dropInput s).dir = s.dir := rfl
@[simp] theorem dropInput_round (s : State) : (dropInput s).round = s.round := rfl
@[simp] theorem dropInput_build (s : State) : (dropInput s).build = s.build := rfl
@[simp] theorem dropInput_inputs (s : State) : (dropInput s).inputs = s.inputs.tail := rfl
@[simp] theorem dropInput_responses (s : State) : (dropInput s).responses = s.responses := rfl

@[simp] theorem pushInputs_key0 (es : List Input) (s : State) : (pushInputs es s).key0 = s.key0 := rfl
@[simp] theorem pushInputs_key1 (es : List Input) (s : State) : (pushInputs es s).key1 = s.key1 := rfl
@[simp] theorem pushInputs_keylen (es : List Input) (s : State) : (pushInputs es s).keylen = s.keylen := rfl
@[simp] theorem pushInputs_din0 (es : List Input) (s : State) : (pushInputs es s).din0 = s.din0 := rfl
@[simp] theorem pushInputs_din1 (es : List Input) (s : State) : (pushInputs es s).din1 = s.din1 := rfl
@[simp] theorem pushInputs_dout0 (es : List Input) (s : State) : (pushInputs es s).dout0 = s.dout0 := rfl
@[simp] theorem pushInputs_dout1 (es : List Input) (s : State) : (pushInputs es s).dout1 = s.dout1 := rfl
@[simp] theorem pushInputs_masterKey (es : List Input) (s : State) : (pushInputs es s).masterKey = s.masterKey := rfl
@[simp] theorem pushInputs_l (es : List Input) (s : State) : (pushInputs es s).l = s.l := rfl
@[simp] theorem pushInputs_r (es : List Input) (s : State) : (pushInputs es s).r = s.r := rfl
@[simp] theorem pushInputs_busy (es : List Input) (s : State) : (pushInputs es s).busy = s.busy := rfl
@[simp] theorem pushInputs_done (es : List Input) (s : State) : (pushInputs es s).done = s.done := rfl
@[simp] theorem pushInputs_keyValid (es : List Input) (s : State) : (pushInputs es s).keyValid = s.keyValid := rfl
@[simp] theorem pushInputs_errEmptyKey (es : List Input) (s : State) : (pushInputs es s).errEmptyKey = s.errEmptyKey := rfl
@[simp] theorem pushInputs_errNoKey (es : List Input) (s : State) : (pushInputs es s).errNoKey = s.errNoKey := rfl
@[simp] theorem pushInputs_errBusy (es : List Input) (s : State) : (pushInputs es s).errBusy = s.errBusy := rfl
@[simp] theorem pushInputs_errIllegal (es : List Input) (s : State) : (pushInputs es s).errIllegal = s.errIllegal := rfl
@[simp] theorem pushInputs_dir (es : List Input) (s : State) : (pushInputs es s).dir = s.dir := rfl
@[simp] theorem pushInputs_round (es : List Input) (s : State) : (pushInputs es s).round = s.round := rfl
@[simp] theorem pushInputs_build (es : List Input) (s : State) : (pushInputs es s).build = s.build := rfl
@[simp] theorem pushInputs_inputs (es : List Input) (s : State) : (pushInputs es s).inputs = es ++ s.inputs := rfl
@[simp] theorem pushInputs_responses (es : List Input) (s : State) : (pushInputs es s).responses = s.responses := rfl

@[simp] theorem mergeCycle_key0 (a c : State) : (mergeCycle a c).key0 = a.key0 := rfl
@[simp] theorem mergeCycle_key1 (a c : State) : (mergeCycle a c).key1 = a.key1 := rfl
@[simp] theorem mergeCycle_keylen (a c : State) : (mergeCycle a c).keylen = a.keylen := rfl
@[simp] theorem mergeCycle_din0 (a c : State) : (mergeCycle a c).din0 = a.din0 := rfl
@[simp] theorem mergeCycle_din1 (a c : State) : (mergeCycle a c).din1 = a.din1 := rfl
@[simp] theorem mergeCycle_dout0 (a c : State) : (mergeCycle a c).dout0 = c.dout0 := rfl
@[simp] theorem mergeCycle_dout1 (a c : State) : (mergeCycle a c).dout1 = c.dout1 := rfl
@[simp] theorem mergeCycle_masterKey (a c : State) : (mergeCycle a c).masterKey = a.masterKey := rfl
@[simp] theorem mergeCycle_l (a c : State) : (mergeCycle a c).l = c.l := rfl
@[simp] theorem mergeCycle_r (a c : State) : (mergeCycle a c).r = c.r := rfl
@[simp] theorem mergeCycle_busy (a c : State) : (mergeCycle a c).busy = c.busy := rfl
@[simp] theorem mergeCycle_done (a c : State) : (mergeCycle a c).done = c.done := rfl
@[simp] theorem mergeCycle_keyValid (a c : State) : (mergeCycle a c).keyValid = a.keyValid := rfl
@[simp] theorem mergeCycle_errEmptyKey (a c : State) : (mergeCycle a c).errEmptyKey = a.errEmptyKey := rfl
@[simp] theorem mergeCycle_errNoKey (a c : State) : (mergeCycle a c).errNoKey = a.errNoKey := rfl
@[simp] theorem mergeCycle_errBusy (a c : State) : (mergeCycle a c).errBusy = a.errBusy := rfl
@[simp] theorem mergeCycle_errIllegal (a c : State) : (mergeCycle a c).errIllegal = a.errIllegal := rfl
@[simp] theorem mergeCycle_dir (a c : State) : (mergeCycle a c).dir = a.dir := rfl
@[simp] theorem mergeCycle_round (a c : State) : (mergeCycle a c).round = c.round := rfl
@[simp] theorem mergeCycle_build (a c : State) : (mergeCycle a c).build = a.build := rfl
@[simp] theorem mergeCycle_inputs (a c : State) : (mergeCycle a c).inputs = a.inputs := rfl
@[simp] theorem mergeCycle_responses (a c : State) : (mergeCycle a c).responses = a.responses := rfl

@[simp] theorem resetCore_key0 (s : State) : (resetCore s).key0 = 0 := rfl
@[simp] theorem resetCore_key1 (s : State) : (resetCore s).key1 = 0 := rfl
@[simp] theorem resetCore_keylen (s : State) : (resetCore s).keylen = 0 := rfl
@[simp] theorem resetCore_din0 (s : State) : (resetCore s).din0 = 0 := rfl
@[simp] theorem resetCore_din1 (s : State) : (resetCore s).din1 = 0 := rfl
@[simp] theorem resetCore_dout0 (s : State) : (resetCore s).dout0 = 0 := rfl
@[simp] theorem resetCore_dout1 (s : State) : (resetCore s).dout1 = 0 := rfl
@[simp] theorem resetCore_masterKey (s : State) : (resetCore s).masterKey = 0 := rfl
@[simp] theorem resetCore_l (s : State) : (resetCore s).l = 0 := rfl
@[simp] theorem resetCore_r (s : State) : (resetCore s).r = 0 := rfl
@[simp] theorem resetCore_busy (s : State) : (resetCore s).busy = false := rfl
@[simp] theorem resetCore_done (s : State) : (resetCore s).done = false := rfl
@[simp] theorem resetCore_keyValid (s : State) : (resetCore s).keyValid = false := rfl
@[simp] theorem resetCore_errEmptyKey (s : State) : (resetCore s).errEmptyKey = false := rfl
@[simp] theorem resetCore_errNoKey (s : State) : (resetCore s).errNoKey = false := rfl
@[simp] theorem resetCore_errBusy (s : State) : (resetCore s).errBusy = false := rfl
@[simp] theorem resetCore_errIllegal (s : State) : (resetCore s).errIllegal = false := rfl
@[simp] theorem resetCore_dir (s : State) : (resetCore s).dir = .forward := rfl
@[simp] theorem resetCore_round (s : State) : (resetCore s).round = 0 := rfl
@[simp] theorem resetCore_build (s : State) : (resetCore s).build = s.build := rfl
@[simp] theorem resetCore_inputs (s : State) : (resetCore s).inputs = s.inputs := rfl
@[simp] theorem resetCore_responses (s : State) : (resetCore s).responses = s.responses := rfl

end Sys2Proof.Machine
end

