-- ==== Sys2Proof/Laws/Ops.lean ====
section
/-! SUPPORT. What each shared operation, each meaning and the step can do, said once: later proofs cite these lemmas
instead of unfolding. -/

namespace Sys2Proof.Machine

variable {s t : State}

theorem execLdkey_cases (h : execLdkey s = .next t) :
    (s.busy = true ∧ t = raise .busyViolation s) ∨
    (s.busy = false ∧ s.keylen = 0 ∧ t = dropKeyValid (raise .emptyKey s)) ∨
    (s.busy = false ∧ s.keylen ≠ 0 ∧ t = loadMasterKey (deriveMasterKey (keyBytes s)) s) := by
  unfold execLdkey at h
  split at h
  · cases h; exact .inl ⟨‹_›, rfl⟩
  · split at h <;> cases h
    · exact .inr (.inl ⟨by simpa using ‹¬s.busy = true›, ‹_›, rfl⟩)
    · exact .inr (.inr ⟨by simpa using ‹¬s.busy = true›, ‹_›, rfl⟩)

theorem startBlock_cases {d : Direction} (h : startBlock d s = .next t) :
    (s.busy = true ∧ t = raise .busyViolation s) ∨
    (s.busy = false ∧ s.keyValid = false ∧ t = raise .noKey s) ∨
    (s.busy = false ∧ s.keyValid = true ∧ t = accept d s) := by
  unfold startBlock at h
  split at h
  · cases h; exact .inl ⟨‹_›, rfl⟩
  · split at h <;> cases h
    · exact .inr (.inl ⟨by simpa using ‹¬s.busy = true›, ‹_›, rfl⟩)
    · exact .inr (.inr ⟨by simpa using ‹¬s.busy = true›, by simpa using ‹¬s.keyValid = false›, rfl⟩)

theorem execLdkey_answers (s : State) : ∃ t, execLdkey s = .next t := by
  unfold execLdkey
  split
  · exact ⟨_, rfl⟩
  · split <;> exact ⟨_, rfl⟩

theorem startBlock_answers (d : Direction) (s : State) : ∃ t, startBlock d s = .next t := by
  unfold startBlock
  split
  · exact ⟨_, rfl⟩
  · split <;> exact ⟨_, rfl⟩

/-- What the write of a command word comes to: one of the six commands (45_commands.md R200). -/
theorem issueCommand_is (w : Word) (s : State) :
    issueCommand w s = illegal s ∨ issueCommand w s = execNop s ∨ issueCommand w s = execLdkey s ∨
    issueCommand w s = execEnc s ∨ issueCommand w s = execDec s ∨ issueCommand w s = execClrerr s := by
  unfold issueCommand
  split
  · exact .inl rfl
  · split
    · exact .inr (.inl rfl)
    · split
      · exact .inr (.inr (.inl rfl))
      · split
        · exact .inr (.inr (.inr (.inl rfl)))
        · split
          · exact .inr (.inr (.inr (.inr (.inl rfl))))
          · exact .inr (.inr (.inr (.inr (.inr rfl))))

/-- What an instruction can do to the state. -/
inductive Effect (s : State) : State → Prop where
  | unchanged : Effect s s
  | raised (e : ErrorKind) : Effect s (raise e s)
  | keyDropped (idle : s.busy = false) (empty : s.keylen = 0) : Effect s (dropKeyValid (raise .emptyKey s))
  | keyLoaded (idle : s.busy = false) (some : s.keylen ≠ 0) :
      Effect s (loadMasterKey (deriveMasterKey (keyBytes s)) s)
  | accepted (d : Direction) (idle : s.busy = false) (key : s.keyValid = true) : Effect s (accept d s)
  | cleared : Effect s (clearErrors s)
  | wroteKey0 (w : Word) : Effect s (setKey0 w s)
  | wroteKey1 (w : Word) : Effect s (setKey1 w s)
  | wroteKeylen (w : Word) : Effect s (setKeylen w s)
  | wroteDin0 (w : Word) : Effect s (setDin0 w s)
  | wroteDin1 (w : Word) : Effect s (setDin1 w s)
  | responded (v : Word) : Effect s (respond v s)

theorem execLdkey_effect (h : execLdkey s = .next t) : Effect s t := by
  obtain ⟨-, rfl⟩ | ⟨hb, hk, rfl⟩ | ⟨hb, hk, rfl⟩ := execLdkey_cases h
  · exact .raised _
  · exact .keyDropped hb hk
  · exact .keyLoaded hb hk

theorem startBlock_effect {d : Direction} (h : startBlock d s = .next t) : Effect s t := by
  obtain ⟨-, rfl⟩ | ⟨-, -, rfl⟩ | ⟨hb, hk, rfl⟩ := startBlock_cases h
  · exact .raised _
  · exact .raised _
  · exact .accepted d hb hk

theorem issueCommand_effect {w : Word} (h : issueCommand w s = .next t) : Effect s t := by
  rcases issueCommand_is w s with e | e | e | e | e | e <;> rw [e] at h
  · cases h; exact .raised _
  · cases h; exact .unchanged
  · exact execLdkey_effect h
  · exact startBlock_effect h
  · exact startBlock_effect h
  · cases h; exact .cleared

/-- What `exec` can do, over all instructions. -/
theorem exec_effect {i : Instr} (h : exec i s = .next t) : Effect s t := by
  cases i with
  | ldkey => exact execLdkey_effect h
  | enc => exact startBlock_effect h
  | dec => exact startBlock_effect h
  | wrCmd w => exact issueCommand_effect h
  | nop => cases h; exact .unchanged
  | clrerr => cases h; exact .cleared
  | illegalOp5 => cases h; exact .raised _
  | illegalOp6 => cases h; exact .raised _
  | illegalOp7 => cases h; exact .raised _
  | illegalRsvd => cases h; exact .raised _
  | wrKey0 w => cases h; exact .wroteKey0 w
  | wrKey1 w => cases h; exact .wroteKey1 w
  | wrKeylen w => cases h; exact .wroteKeylen w
  | wrDin0 w => cases h; exact .wroteDin0 w
  | wrDin1 w => cases h; exact .wroteDin1 w
  | wrStatus => cases h; exact .unchanged
  | wrDout0 => cases h; exact .unchanged
  | wrDout1 => cases h; exact .unchanged
  | wrMk0 => cases h; exact .unchanged
  | wrMk1 => cases h; exact .unchanged
  | wrConfig => cases h; exact .unchanged
  | wrOther => cases h; exact .unchanged
  | rdCmd => cases h; exact .responded _
  | rdStatus => cases h; exact .responded _
  | rdKey0 => cases h; exact .responded _
  | rdKey1 => cases h; exact .responded _
  | rdKeylen => cases h; exact .responded _
  | rdDin0 => cases h; exact .responded _
  | rdDin1 => cases h; exact .responded _
  | rdDout0 => cases h; exact .responded _
  | rdDout1 => cases h; exact .responded _
  | rdMk0 => cases h; exact .responded _
  | rdMk1 => cases h; exact .responded _
  | rdConfig => cases h; exact .responded _
  | rdOther => cases h; exact .responded _

/-- Every instruction answers a next state: none stops (92_eei_decisions.md D6, D9). -/
theorem exec_answers (i : Instr) (s : State) : ∃ t, exec i s = .next t := by
  cases i with
  | ldkey => exact execLdkey_answers s
  | enc => exact startBlock_answers _ s
  | dec => exact startBlock_answers _ s
  | wrCmd w =>
    change ∃ t, issueCommand w s = .next t
    rcases issueCommand_is w s with e | e | e | e | e | e <;> rw [e]
    · exact ⟨_, rfl⟩
    · exact ⟨_, rfl⟩
    · exact execLdkey_answers s
    · exact startBlock_answers _ s
    · exact startBlock_answers _ s
    · exact ⟨_, rfl⟩
  | nop | clrerr | illegalOp5 | illegalOp6 | illegalOp7 | illegalRsvd | wrKey0 | wrKey1 | wrKeylen | wrDin0 | wrDin1
  | wrStatus | wrDout0 | wrDout1 | wrMk0 | wrMk1 | wrConfig | wrOther | rdCmd | rdStatus | rdKey0 | rdKey1 | rdKeylen
  | rdDin0 | rdDin1 | rdDout0 | rdDout1 | rdMk0 | rdMk1 | rdConfig | rdOther => exact ⟨_, rfl⟩

/-! ### The engine -/

theorem roundStep_cases (h : roundStep s = .next t) : ∃ hr : s.round.toNat < 16,
    (s.round ≠ 15 ∧ t = advanceRound (roundKey s ⟨s.round.toNat, hr⟩) s) ∨
    (s.round = 15 ∧ t = completeBlock (advanceRound (roundKey s ⟨s.round.toNat, hr⟩) s)) := by
  unfold roundStep at h
  split at h
  · rename_i hr
    split at h <;> cases h
    · exact ⟨hr, .inr ⟨‹_›, rfl⟩⟩
    · exact ⟨hr, .inl ⟨‹_›, rfl⟩⟩
  · cases h

theorem roundStep_answers (hr : s.round.toNat < 16) : ∃ t, roundStep s = .next t := by
  unfold roundStep
  rw [dif_pos hr]
  split <;> exact ⟨_, rfl⟩

theorem coreStep_cases (h : coreStep s = .next t) :
    (s.busy = false ∧ t = s) ∨ (s.busy = true ∧ roundStep s = .next t) := by
  unfold coreStep at h
  split at h
  · exact .inr ⟨‹_›, h⟩
  · cases h; exact .inl ⟨by simpa using ‹¬s.busy = true›, rfl⟩

theorem clockCycle_cases {a : Option (BitVec 41)} (h : clockCycle a s = .next t) :
    ∃ u, cycleAccess a s = .next u ∧
      ((s.busy = false ∧ t = u) ∨ (s.busy = true ∧ ∃ c, roundStep s = .next c ∧ t = mergeCycle u c)) := by
  unfold clockCycle at h
  split at h
  · rename_i u hu
    refine ⟨u, hu, ?_⟩
    split at h
    · split at h <;> cases h
      exact .inr ⟨‹_›, _, ‹_›, rfl⟩
    · cases h; exact .inl ⟨by simpa using ‹¬s.busy = true›, rfl⟩
  · cases h
  · cases h

theorem cycleAccess_effect {a : Option (BitVec 41)} (h : cycleAccess a s = .next t) : Effect s t := by
  cases a with
  | none => cases h; exact .unchanged
  | some b => exact exec_effect h

theorem cycleAccess_answers (a : Option (BitVec 41)) (s : State) : ∃ t, cycleAccess a s = .next t := by
  cases a with
  | none => exact ⟨s, rfl⟩
  | some b => exact exec_answers (decodeBus b) s

/-! ### The step -/

theorem step_of_nil (h : s.inputs = []) : step s = coreStep s := by
  unfold step performNext; rw [h]

theorem step_of_cons {e : Input} {es : List Input} (h : s.inputs = e :: es) : step s = perform e (dropInput s) := by
  unfold step performNext; rw [h]

end Sys2Proof.Machine
end

