-- ==== Sys2Proof/Laws/PerInstr.lean ====
section
/-! SUPPORT. The family `TableRow` of LAWS.json: every instruction's encoding has the bits that its row of
spec/opcode_table.json fixes (the row's match under its mask). -/

namespace Sys2Proof.Laws

/-- The row of spec/opcode_table.json an instruction stands for, as (match, mask); a fallback row fixes WE or
nothing. -/
def rowOf : Instr → Nat × Nat
  | .nop => (0x00000000, 0xFFFFFFFF)
  | .ldkey => (0x00000001, 0xFFFFFFFF)
  | .enc => (0x00000002, 0xFFFFFFFF)
  | .dec => (0x00000003, 0xFFFFFFFF)
  | .clrerr => (0x00000004, 0xFFFFFFFF)
  | .illegalOp5 _ => (0x00000005, 0x00000007)
  | .illegalOp6 _ => (0x00000006, 0x00000007)
  | .illegalOp7 _ => (0x00000007, 0x00000007)
  | .illegalRsvd _ _ => (0x00000000, 0x00000000)
  | .wrCmd _ => (0x10000000000, 0x1FF00000000)
  | .rdCmd => (0x00000000000, 0x1FF00000000)
  | .wrStatus _ => (0x10400000000, 0x1FF00000000)
  | .rdStatus => (0x00400000000, 0x1FF00000000)
  | .wrKey0 _ => (0x10800000000, 0x1FF00000000)
  | .rdKey0 => (0x00800000000, 0x1FF00000000)
  | .wrKey1 _ => (0x10C00000000, 0x1FF00000000)
  | .rdKey1 => (0x00C00000000, 0x1FF00000000)
  | .wrKeylen _ => (0x11000000000, 0x1FF00000000)
  | .rdKeylen => (0x01000000000, 0x1FF00000000)
  | .wrDin0 _ => (0x11400000000, 0x1FF00000000)
  | .rdDin0 => (0x01400000000, 0x1FF00000000)
  | .wrDin1 _ => (0x11800000000, 0x1FF00000000)
  | .rdDin1 => (0x01800000000, 0x1FF00000000)
  | .wrDout0 _ => (0x11C00000000, 0x1FF00000000)
  | .rdDout0 => (0x01C00000000, 0x1FF00000000)
  | .wrDout1 _ => (0x12000000000, 0x1FF00000000)
  | .rdDout1 => (0x02000000000, 0x1FF00000000)
  | .wrMk0 _ => (0x12400000000, 0x1FF00000000)
  | .rdMk0 => (0x02400000000, 0x1FF00000000)
  | .wrMk1 _ => (0x12800000000, 0x1FF00000000)
  | .rdMk1 => (0x02800000000, 0x1FF00000000)
  | .wrConfig _ => (0x12C00000000, 0x1FF00000000)
  | .rdConfig => (0x02C00000000, 0x1FF00000000)
  | .wrOther _ _ => (0x10000000000, 0x10000000000)
  | .rdOther _ => (0x00000000000, 0x10000000000)

/-- The bits of a frame as the table numbers them, in the width of the longer format. -/
def frameBits : Frame → BitVec 41
  | .cmd w => w.setWidth 41
  | .bus t => t

/-- The encoding of `i` matches its table row. -/
abbrev TableRow.Statement (i : Instr) : Prop :=
  frameBits (encode i) &&& BitVec.ofNat 41 (rowOf i).2 = BitVec.ofNat 41 (rowOf i).1

/-- A transaction's bits under the mask of WE and ADDR. -/
theorem bus_masked (we : BitVec 1) (addr : BitVec 8) (w : Word) :
    (we ++ addr ++ w : BitVec 41) &&& 0x1FF00000000#41 = (we ++ addr : BitVec 9) ++ (0 : BitVec 32) := by
  apply BitVec.eq_of_getLsbD_eq
  intro i hi
  simp only [BitVec.getLsbD_and, BitVec.getLsbD_append]
  by_cases h : i < 32
  · have low : ∀ i < 32, (0x1FF00000000#41).getLsbD i = false := by decide
    simp [h, low i h]
  · have high : ∀ i < 41, ¬i < 32 → (0x1FF00000000#41).getLsbD i = true := by decide
    simp [h, high i hi h]

/-- A transaction's bits under the mask of WE alone. -/
theorem bus_we (we : BitVec 1) (addr : BitVec 8) (w : Word) :
    (we ++ addr ++ w : BitVec 41) &&& 0x10000000000#41 = we ++ (0 : BitVec 40) := by
  apply BitVec.eq_of_getLsbD_eq
  intro i hi
  simp only [BitVec.getLsbD_and, BitVec.getLsbD_append]
  by_cases h : i < 40
  · have low : ∀ i < 40, (0x10000000000#41).getLsbD i = false := by decide
    simp [h, low i h]
  · obtain rfl : i = 40 := by omega
    simp

/-- The three OP bits of a command word built from RSVD and OP. -/
theorem cmd_op (rsvd : BitVec 29) (op : BitVec 3) :
    (rsvd ++ op : BitVec 32).setWidth 41 &&& 7#41 = op.setWidth 41 := by
  apply BitVec.eq_of_getLsbD_eq
  intro i hi
  simp only [BitVec.getLsbD_and, BitVec.getLsbD_setWidth, BitVec.getLsbD_append]
  by_cases h : i < 3
  · have low : ∀ i < 3, (7#41).getLsbD i = true := by decide
    simp [h, low i h]
  · have high : ∀ i < 41, ¬i < 3 → (7#41).getLsbD i = false := by decide
    rw [high i hi h, BitVec.getLsbD_of_ge op i (by omega)]
    simp

namespace TableRow

theorem nop : Statement .nop := by decide
theorem ldkey : Statement .ldkey := by decide
theorem enc : Statement .enc := by decide
theorem dec : Statement .dec := by decide
theorem clrerr : Statement .clrerr := by decide
theorem illegalOp5 (rsvd : BitVec 29) : Statement (.illegalOp5 rsvd) := cmd_op rsvd 5
theorem illegalOp6 (rsvd : BitVec 29) : Statement (.illegalOp6 rsvd) := cmd_op rsvd 6
theorem illegalOp7 (rsvd : BitVec 29) : Statement (.illegalOp7 rsvd) := cmd_op rsvd 7
theorem illegalRsvd (rsvd : BitVec 29) (op : BitVec 3) : Statement (.illegalRsvd rsvd op) := BitVec.and_zero
theorem wrCmd (w : Word) : Statement (.wrCmd w) :=
  (bus_masked 1 RegName.cmd.offset w).trans (by dsimp only [rowOf]; decide)
theorem rdCmd : Statement .rdCmd := by decide
theorem wrStatus (w : Word) : Statement (.wrStatus w) :=
  (bus_masked 1 RegName.status.offset w).trans (by dsimp only [rowOf]; decide)
theorem rdStatus : Statement .rdStatus := by decide
theorem wrKey0 (w : Word) : Statement (.wrKey0 w) :=
  (bus_masked 1 RegName.key0.offset w).trans (by dsimp only [rowOf]; decide)
theorem rdKey0 : Statement .rdKey0 := by decide
theorem wrKey1 (w : Word) : Statement (.wrKey1 w) :=
  (bus_masked 1 RegName.key1.offset w).trans (by dsimp only [rowOf]; decide)
theorem rdKey1 : Statement .rdKey1 := by decide
theorem wrKeylen (w : Word) : Statement (.wrKeylen w) :=
  (bus_masked 1 RegName.keylen.offset w).trans (by dsimp only [rowOf]; decide)
theorem rdKeylen : Statement .rdKeylen := by decide
theorem wrDin0 (w : Word) : Statement (.wrDin0 w) :=
  (bus_masked 1 RegName.din0.offset w).trans (by dsimp only [rowOf]; decide)
theorem rdDin0 : Statement .rdDin0 := by decide
theorem wrDin1 (w : Word) : Statement (.wrDin1 w) :=
  (bus_masked 1 RegName.din1.offset w).trans (by dsimp only [rowOf]; decide)
theorem rdDin1 : Statement .rdDin1 := by decide
theorem wrDout0 (w : Word) : Statement (.wrDout0 w) :=
  (bus_masked 1 RegName.dout0.offset w).trans (by dsimp only [rowOf]; decide)
theorem rdDout0 : Statement .rdDout0 := by decide
theorem wrDout1 (w : Word) : Statement (.wrDout1 w) :=
  (bus_masked 1 RegName.dout1.offset w).trans (by dsimp only [rowOf]; decide)
theorem rdDout1 : Statement .rdDout1 := by decide
theorem wrMk0 (w : Word) : Statement (.wrMk0 w) :=
  (bus_masked 1 RegName.mk0.offset w).trans (by dsimp only [rowOf]; decide)
theorem rdMk0 : Statement .rdMk0 := by decide
theorem wrMk1 (w : Word) : Statement (.wrMk1 w) :=
  (bus_masked 1 RegName.mk1.offset w).trans (by dsimp only [rowOf]; decide)
theorem rdMk1 : Statement .rdMk1 := by decide
theorem wrConfig (w : Word) : Statement (.wrConfig w) :=
  (bus_masked 1 RegName.config.offset w).trans (by dsimp only [rowOf]; decide)
theorem rdConfig : Statement .rdConfig := by decide
theorem wrOther (addr : BitVec 8) (w : Word) : Statement (.wrOther addr w) := (bus_we 1 addr w).trans (by dsimp only [rowOf]; decide)
theorem rdOther (addr : BitVec 8) : Statement (.rdOther addr) := (bus_we 0 addr 0).trans (by dsimp only [rowOf]; decide)

end TableRow

end Sys2Proof.Laws
end

