-- ==== Sys2Proof/Laws/Step.lean ====
section
/-! SUPPORT. What a step can do, said once (the inversion of `step`), and runs. -/

namespace Sys2Proof.Machine

variable {s t : State}

/-- What a step can do to the state. -/
inductive StepEffect (s : State) : State → Prop where
  /-- A reset cycle. -/
  | reset (access : Option (BitVec 41)) (head : s.inputs.head? = some (.reset access)) :
      StepEffect s (resetCycle access (dropInput s))
  /-- An access, and the engine does not move. -/
  | access {i : Instr} {u : State} (next : nextAccess s = some i) (h : exec i (dropInput s) = .next u) :
      StepEffect s u
  /-- An access and a round step in the same clock cycle. -/
  | accessAndRound {i : Instr} {u c : State} (next : nextAccess s = some i) (busy : s.busy = true)
      (h : exec i (dropInput s) = .next u) (hc : roundStep (dropInput s) = .next c) : StepEffect s (mergeCycle u c)
  /-- A read of POLL that shows BUSY = 1: the loop goes on. -/
  | pollAgain (gap : Nat) (head : s.inputs.head? = some (.poll gap)) (busy : s.busy = true) :
      StepEffect s (pushInputs (List.replicate (gap + 1) .core ++ [.poll gap])
        (respond (statusWord (dropInput s)) (dropInput s)))
  /-- The engine has no step. -/
  | idle (none : nextAccess s = none) (noReset : ¬nextIsReset s) (idle : s.busy = false) :
      StepEffect s (dropInput s)
  /-- A round step alone. -/
  | round {c : State} (none : nextAccess s = none) (noReset : ¬nextIsReset s) (busy : s.busy = true)
      (hc : roundStep (dropInput s) = .next c) : StepEffect s c

theorem dropInput_of_nil (h : s.inputs = []) : dropInput s = s := by
  cases s
  simp_all [dropInput]

/-- A round step alone in its clock cycle is just a round step. -/
theorem mergeCycle_self {c : State} (h : roundStep s = .next c) : mergeCycle s c = c := by
  obtain ⟨hr, ⟨-, rfl⟩ | ⟨-, rfl⟩⟩ := roundStep_cases h <;> rfl

theorem statusWord_busy (s : State) : (statusWord s).getLsbD 0 = s.busy := by
  unfold statusWord
  rw [BitVec.getLsbD_append]
  simp

/-- The inversion of `step`. -/
theorem step_effect (h : step s = .next t) : StepEffect s t := by
  cases hi : s.inputs with
  | nil =>
    have none : nextAccess s = none := by simp [nextAccess, hi]
    have noReset : ¬nextIsReset s := by simp [nextIsReset, hi]
    rw [step_of_nil hi] at h
    obtain ⟨hb, rfl⟩ | ⟨hb, hc⟩ := coreStep_cases h
    · have := StepEffect.idle none noReset hb
      rwa [dropInput_of_nil hi] at this
    · exact .round none noReset hb (by rwa [dropInput_of_nil hi])
  | cons e es =>
    rw [step_of_cons hi] at h
    cases e with
    | bus b => exact .access (i := decodeBus b) (by simp [nextAccess, hi, inputInstr]) h
    | cmd w => exact .access (i := decodeCommand w) (by simp [nextAccess, hi, inputInstr]) h
    | core =>
      have none : nextAccess s = none := by simp [nextAccess, hi, inputInstr]
      have noReset : ¬nextIsReset s := by simp [nextIsReset, hi]
      obtain ⟨hb, rfl⟩ | ⟨hb, hc⟩ := coreStep_cases h
      · exact .idle none noReset hb
      · exact .round none noReset hb hc
    | cycle a =>
      obtain ⟨u, hu, hc⟩ := clockCycle_cases h
      cases a with
      | none =>
        have none : nextAccess s = none := by simp [nextAccess, hi, inputInstr]
        have noReset : ¬nextIsReset s := by simp [nextIsReset, hi]
        cases hu
        obtain ⟨hb, rfl⟩ | ⟨hb, c, hc, rfl⟩ := hc
        · exact .idle none noReset hb
        · rw [mergeCycle_self hc]
          exact .round none noReset hb hc
      | some b =>
        have next : nextAccess s = some (decodeBus b) := by simp [nextAccess, hi, inputInstr]
        obtain ⟨-, rfl⟩ | ⟨hb, c, hc, rfl⟩ := hc
        · exact .access next hu
        · exact .accessAndRound next hb hu hc
    | reset a =>
      cases h
      exact .reset a (by simp [hi])
    | poll gap =>
      cases h
      unfold pollOnce
      split
      · rename_i hb
        rw [statusWord_busy] at hb
        exact .pollAgain gap (by simp [hi]) hb
      · exact .access (i := .rdStatus) (by simp [nextAccess, hi, inputInstr]) rfl

/-- A step stops only where the engine is to move with ROUND above 15. -/
theorem step_answers (h : s.busy = true → s.round.toNat < 16) : ∃ t, step s = .next t := by
  have core : ∀ u : State, u.busy = s.busy → u.round = s.round → ∃ t, coreStep u = .next t := by
    intro u hb hr
    unfold coreStep
    split
    · exact roundStep_answers (by rw [hr]; exact h (by rw [← hb]; assumption))
    · exact ⟨_, rfl⟩
  cases hi : s.inputs with
  | nil => rw [step_of_nil hi]; exact core s rfl rfl
  | cons e es =>
    rw [step_of_cons hi]
    cases e with
    | bus b => exact exec_answers _ _
    | cmd w => exact exec_answers _ _
    | core => exact core _ rfl rfl
    | reset a => exact ⟨_, rfl⟩
    | poll gap => exact ⟨_, rfl⟩
    | cycle a =>
      obtain ⟨u, hu⟩ := cycleAccess_answers a (dropInput s)
      simp only [perform, clockCycle, hu]
      split
      · rename_i hb
        obtain ⟨c, hc⟩ := roundStep_answers (s := dropInput s) (h hb)
        exact ⟨mergeCycle u c, by rw [hc]⟩
      · exact ⟨_, rfl⟩

/-! ### Runs -/

/-- `run` is the host interface's run of the machine. -/
theorem run_is_core_run (n : Nat) (s : State) : Host.Core.run Sys2Proof.core n s = run n s := by
  induction n generalizing s with
  | zero => rfl
  | succ n ih =>
    have h := Host.Core.run.eq_2 Sys2Proof.core s n
    refine h.trans ?_
    simp only [core, run]
    cases step s with
    | next u => exact ih u
    | fault f => rfl
    | refused r => rfl

theorem run_succ {n : Nat} (h : step s = .next t) : run (n + 1) s = run n t := by
  rw [run, h]

theorem run_succ_cases {n : Nat} (h : run (n + 1) s = .next t) : ∃ u, step s = .next u ∧ run n u = .next t := by
  rw [run] at h
  split at h
  · rename_i u hu
    exact ⟨u, hu, h⟩
  · cases h
  · cases h

theorem run_add {m n : Nat} (h : run m s = .next t) : run (m + n) s = run n t := by
  induction m generalizing s with
  | zero => cases h; rw [Nat.zero_add]
  | succ m ih =>
    obtain ⟨u, hu, hr⟩ := run_succ_cases h
    rw [Nat.add_right_comm, run_succ hu]
    exact ih hr

/-- With nothing waiting and no operation in flight the machine stays as it is. -/
theorem run_idle (n : Nat) (hi : s.inputs = []) (hb : s.busy = false) : run n s = .next s := by
  induction n with
  | zero => rfl
  | succ n ih =>
    have h : step s = .next s := by
      rw [step_of_nil hi, coreStep]
      simp [hb]
    rw [run_succ h, ih]

/-- One more round of the block in flight (44_block_core.md R183). -/
theorem halvesAfter_succ (build : Build) (mk : Block) (d : Direction) (b : Block) (i : Nat) (h : i < 16) :
    halvesAfter build mk d b (i + 1) =
      roundOnce (deriveRoundKey build.ks mk (scheduleFor build.shiftFwd d) ⟨i, h⟩) (halvesAfter build mk d b i) := by
  have key : (roundKeys build mk d)[i]'(by simpa using h) =
      deriveRoundKey build.ks mk (scheduleFor build.shiftFwd d) ⟨i, h⟩ := by
    simp [roundKeys]
  unfold halvesAfter
  rw [List.take_succ_eq_append_getElem (by simpa using h), runRounds_append, key]
  rfl

end Sys2Proof.Machine
end

