-- ==== Sys2Proof/Tests/Slice0.lean ====
section
/-! SUPPORT. Tests against values of the spec (95_test_vectors.md and the encodings of 30_encoding.md), each about one
step or one function, and for every obligation with hypotheses a witness that meets them. -/

namespace Sys2Proof.Tests

open Sys2Proof.Machine

/-! ### Small states and what is looked at -/

/-- An idle core with the key of 95_test_vectors.md section 3.3 row 1 loaded, and the block of section 3.5. -/
def idle (ks : KsMode) : State :=
  { State.resetFor (defaultBuild ks) with
    key0 := 0x13345779, key1 := 0x9BBCDF00, keylen := 7, din0 := 0x01234567, din1 := 0x89ABCDEF
    masterKey := 0x139B15EF98DCF2BF, keyValid := true }

/-- The same core, busy with its block, before round `i`. -/
def busyAt (i : Nat) : State :=
  { idle .doc with
    busy := true, round := BitVec.ofNat 5 i
    l := (halvesAfter (defaultBuild .doc) 0x139B15EF98DCF2BF .forward 0x0123456789ABCDEF i).1
    r := (halvesAfter (defaultBuild .doc) 0x139B15EF98DCF2BF .forward 0x0123456789ABCDEF i).2 }

/-- STATUS after an instruction. -/
def statusAfter (i : Instr) (s : State) : Option Word :=
  match exec i s with
  | .next t => some (statusWord t)
  | _ => none

/-- MK after an instruction. -/
def keyAfter (i : Instr) (s : State) : Option Block :=
  match exec i s with
  | .next t => some t.masterKey
  | _ => none

/-- The value an instruction returns to the host. -/
def readBy (i : Instr) (s : State) : Option Word :=
  match exec i s with
  | .next t => t.responses.head?
  | _ => none

/-- The value of a register after an instruction. -/
def offsetAfter (addr : BitVec 8) (i : Instr) (s : State) : Option Word :=
  match exec i s with
  | .next t => some (readOffset addr t)
  | _ => none

/-! ### Well-formedness: each check refuses an ill-formed term -/

theorem test_wellFormed_rsvd_zero : Instr.wellFormed (.illegalRsvd 0 2) = false := by decide
theorem test_wellFormed_rsvd_reserved_op : Instr.wellFormed (.illegalRsvd 1 5) = false := by decide
theorem test_wellFormed_write_of_a_register : Instr.wellFormed (.wrOther 0x2C 7) = false := by decide
theorem test_wellFormed_read_of_a_register : Instr.wellFormed (.rdOther 0x00) = false := by decide
theorem test_wellFormed_accepts :
    Instr.wellFormed (.illegalRsvd 1 4) ∧ Instr.wellFormed (.wrOther 0x30 0) ∧ Instr.wellFormed (.rdOther 0x2D) := by
  decide

/-! ### Decoding: a word of every constructor, written out from 30_encoding.md R80 to R84 and 10_state.md R22 -/

theorem test_decode_commands :
    decode (.cmd 0b00000000000000000000000000000000) = .nop ∧
    decode (.cmd 0b00000000000000000000000000000001) = .ldkey ∧
    decode (.cmd 0b00000000000000000000000000000010) = .enc ∧
    decode (.cmd 0b00000000000000000000000000000011) = .dec ∧
    decode (.cmd 0b00000000000000000000000000000100) = .clrerr ∧
    decode (.cmd 0b00000000000000000000000000000101) = .illegalOp5 0 ∧
    decode (.cmd 0b00000000000000000000000000000110) = .illegalOp6 0 ∧
    decode (.cmd 0b10000000000000000000000000000111) = .illegalOp7 0x10000000 ∧
    decode (.cmd 0b00000000000000000000000000001010) = .illegalRsvd 1 2 ∧
    decode (.cmd 0b10000000000000000000000000000010) = .illegalRsvd 0x10000000 2 := by decide

theorem test_decode_writes :
    decode (.bus 0b1_00000000_00000000000000000000000000000010) = .wrCmd 2 ∧
    decode (.bus 0b1_00000100_11111111111111111111111111111111) = .wrStatus 0xFFFFFFFF ∧
    decode (.bus 0x10813345779) = .wrKey0 0x13345779 ∧ decode (.bus 0x10C9BBCDF00) = .wrKey1 0x9BBCDF00 ∧
    decode (.bus 0x11000000007) = .wrKeylen 7 ∧ decode (.bus 0x11401234567) = .wrDin0 0x01234567 ∧
    decode (.bus 0x11889ABCDEF) = .wrDin1 0x89ABCDEF ∧ decode (.bus 0x11C00000001) = .wrDout0 1 ∧
    decode (.bus 0x12000000001) = .wrDout1 1 ∧ decode (.bus 0x12400000001) = .wrMk0 1 ∧
    decode (.bus 0x12800000001) = .wrMk1 1 ∧ decode (.bus 0x12C00000001) = .wrConfig 1 ∧
    decode (.bus 0x11511111111) = .wrOther 0x15 0x11111111 ∧ decode (.bus 0x13000000000) = .wrOther 0x30 0 := by decide

/-- Reads; their WDATA is ignored (R80). -/
theorem test_decode_reads :
    decode (.bus 0b0_00000000_00000000000000000000000000000000) = .rdCmd ∧
    decode (.bus 0b0_00000100_00000000000000000000000000000001) = .rdStatus ∧
    decode (.bus 0x00800000000) = .rdKey0 ∧ decode (.bus 0x00C00000000) = .rdKey1 ∧
    decode (.bus 0x01000000000) = .rdKeylen ∧ decode (.bus 0x01400000000) = .rdDin0 ∧
    decode (.bus 0x01800000000) = .rdDin1 ∧ decode (.bus 0x01C00000000) = .rdDout0 ∧
    decode (.bus 0x02000000000) = .rdDout1 ∧ decode (.bus 0x02400000000) = .rdMk0 ∧
    decode (.bus 0x028FFFFFFFF) = .rdMk1 ∧ decode (.bus 0x02C00000000) = .rdConfig ∧
    decode (.bus 0x00600000000) = .rdOther 0x06 ∧ decode (.bus 0x0FC00000000) = .rdOther 0xFC := by decide

theorem test_decode_table_words :
    decodeTableWord 32 3 = some .dec ∧ decodeTableWord 48 0x10813345779 = some (.wrKey0 0x13345779) ∧
    decodeTableWord 41 0x00400000000 = some .rdStatus ∧ decodeTableWord 48 0x20000000000 = none := by decide

theorem test_bytes_rejected_by_name :
    decodeBytes [0, 0, 2] = .error (.length 3) ∧ decodeBytes [0x02, 0, 0, 0, 0, 0] = .error .padding := by decide

/-! ### Bit utilities (95_test_vectors.md section 3.1) -/

theorem test_packBits :
    packBits [false, false, false, true, false, false, true, true] = some [0x13] ∧ packBits [] = some [] ∧
    packBits (zeros 7) = none := by decide
theorem test_unpackBits :
    unpackBits [0x13] = [false, false, false, true, false, false, true, true] ∧
    unpackBits [0x80, 0x01] = [true] ++ zeros 14 ++ [true] := by decide
theorem test_bitsToNumber :
    bitsToNumber [true, false] = 2 ∧ bitsToNumber [false, true] = 1 ∧ bitsToNumber [true, true, false, true] = 13 ∧
    bitsToNumber [] = 0 := by decide
theorem test_numberToBits :
    numberToBits 13 = some [false, false, false, false, true, true, false, true] ∧
    numberToBits 255 = some (List.replicate 8 true) ∧ numberToBits 256 = none := by decide
theorem test_xor :
    xor32 (seqOf 0xCC00CCFF#32) (seqOf 0x234AA9BB#32) = some (seqOf 0xEF4A6544#32) ∧
    xor48 (seqOf 0x7A15557A1555#48) (seqOf 0x1B02EFFC7072#48) = some (seqOf 0x6117BA866527#48) := by decide
theorem test_rotateLeft64 :
    rotateLeft64 (seqOf 0x8000000000000001#64) 1 = some (seqOf 0x0000000000000003#64) ∧
    rotateLeft64 (seqOf 0x0123456789ABCDEF#64) 8 = some (seqOf 0x23456789ABCDEF01#64) ∧
    rotateLeft64 (seqOf 0x0123456789ABCDEF#64) 65 = none := by decide
theorem test_rotateLeft28 :
    rotateLeft28 (seqOf 0x8000000#28) 1 = some (seqOf 0x0000001#28) ∧
    rotateLeft28 (seqOf 0xF0CCAAF#28) 1 = some (seqOf 0xE19955F#28) ∧
    rotateLeft28 (seqOf 0x556678F#28) 28 = some (seqOf 0x556678F#28) := by decide

/-! ### Tables (95_test_vectors.md section 3.2) and their checks (41_permutation_engine.md R128) -/

theorem test_IP :
    permute 64 tableIP 0x0123456789ABCDEF#64 = 0xCC00CCFFF0AAF0AA ∧
    permute 64 tableIP 0x8000000000000000#64 = 0x0000000001000000 := by decide
theorem test_FP :
    permute 64 tableFP 0xCC00CCFFF0AAF0AA#64 = 0x0123456789ABCDEF ∧
    permute 64 tableFP 0x0000000000000001#64 = 0x0200000000000000 := by decide
theorem test_E :
    permute 48 tableE 0xF0AAF0AA#32 = 0x7A15557A1555 ∧ permute 48 tableE 0x80000000#32 = 0x400000000001 := by decide
theorem test_P :
    permute 32 tableP 0x5C82B597#32 = 0x234AA9BB ∧ permute 32 tableP 0x80000000#32 = 0x00800000 := by decide
theorem test_PC1 :
    permute 28 tablePC1C 0x133457799BBCDFF1#64 = 0xF0CCAAF ∧ permute 28 tablePC1D 0x133457799BBCDFF1#64 = 0x556678F ∧
    permute 28 tablePC1C 0x0101010101010101#64 = 0 ∧ permute 28 tablePC1D 0x0101010101010101#64 = 0 := by decide
theorem test_PC2 : permute 48 tablePC2 0xF0CCAAF556678F00#64 = 0xCB3D8B0E17F5 := by decide
/-- A chunk that is not one block is refused, longer or shorter (60_exceptions.md R251, 93_implementation_defined.md I5). -/
theorem test_misaligned_chunk :
    seqProcessBlock (defaultBuild .doc) (zeros 72) (zeros 64) .forward = none ∧
    seqProcessBlock (defaultBuild .fips46) (zeros 56) (zeros 64) .reverse = none ∧
    seqProcessBlock (defaultBuild .fips46) (zeros 64) (zeros 72) .forward = none ∧
    blocksOf (List.replicate 9 0) = none := ⟨rfl, rfl, rfl, rfl⟩
theorem test_applyTable_out_of_range : applyTable [1, 33] (zeros 32) = none ∧ applyTable [0] (zeros 32) = none := by decide

/-- R128(c), (d), (e): P is a permutation, every position occurs in E, PC1 takes the 56 non-parity positions once. -/
theorem test_table_properties :
    ((List.range 32).all fun p => tableP.count (p + 1) == 1) = true ∧
    ((List.range 32).all fun p => decide (1 ≤ tableE.count (p + 1))) = true ∧
    ((List.range 64).all fun p =>
      (tablePC1C ++ tablePC1D).count (p + 1) == if (p + 1) % 8 = 0 then 0 else 1) = true := by decide

/-! ### Key schedule (95_test_vectors.md section 3.3) -/

theorem test_deriveMasterKey :
    deriveMasterKey [0x13, 0x34, 0x57, 0x79, 0x9B, 0xBC, 0xDF] = 0x139B15EF98DCF2BF ∧
    deriveMasterKey [0x13, 0x34, 0x57, 0x79, 0x9B, 0xBC, 0xDF, 0x00, 0x11, 0x22, 0x33] = 0x139B15EF98DCF2BF ∧
    deriveMasterKey [0xFE] = 0xFE01010101010101 ∧ deriveMasterKey [] = 0x0101010101010101 := by decide +kernel
theorem test_deriveMasterKey_standard :
    deriveMasterKey [0x12, 0x69, 0x5B, 0xC9, 0xB7, 0xB7, 0xF8] = 0x133457799BBCDFF1 ∧
    deriveMasterKey [0x61, 0x62, 0x63] = 0x61B0986101010101 := by decide
/-- The two lists of 42_key_schedule.md R142 and 00_scope.md R6. -/
theorem test_shift_schedules :
    (scheduleFor State.reset.build.shiftFwd .forward).toList = [1, 2, 4, 6, 8, 10, 12, 14, 15, 17, 19, 21, 23, 25, 27, 28] ∧
    (scheduleFor State.reset.build.shiftFwd .reverse).toList = [28, 27, 25, 23, 21, 19, 17, 15, 14, 12, 10, 8, 6, 4, 2, 1] := by
  decide
theorem test_roundKey_doc :
    deriveRoundKey .doc 0x139B15EF98DCF2BF defaultShiftFwd 0 = 0x6F319B9C6CCE ∧
    deriveRoundKey .doc 0x139B15EF98DCF2BF defaultShiftFwd 8 = 0x6F319BFC763C ∧
    deriveRoundKey .doc 0x139B15EF98DCF2BF (shiftRev defaultShiftFwd) 0 = 0x6F319B58E59A ∧
    deriveRoundKey .doc 0x129B15EF98DCF2BF defaultShiftFwd 0 = 0x6F319B9C6CCA := by decide +kernel
theorem test_roundKey_fips46 :
    deriveRoundKey .fips46 0x133457799BBCDFF1 defaultShiftFwd 0 = 0x1B02EFFC7072 ∧
    deriveRoundKey .fips46 0x133457799BBCDFF1 defaultShiftFwd 7 = 0xF78A3AC13BFB ∧
    deriveRoundKey .fips46 0x133457799BBCDFF1 defaultShiftFwd 15 = 0xCB3D8B0E17F5 := by decide +kernel

/-- A build with another `SHIFT_FWD`: "with `shiftSchedule[i] = 28` both halves are unrotated" (42_key_schedule.md R144),
so the round key is that of round 15 at the default. -/
theorem test_shift_parameter :
    roundKey { State.resetFor { ks := .fips46, shiftFwd := Vector.replicate 16 28 } with
      masterKey := 0x133457799BBCDFF1 } 0 = 0xCB3D8B0E17F5 := by decide +kernel

/-! ### Feistel and block (95_test_vectors.md sections 3.4, 3.5, 3.6) -/

theorem test_sbox_group : sbox 0 0b011011 = 0b0101 := by decide
theorem test_sbox_corners :
    sbox 1 0b000000 = 15 ∧ sbox 2 0b011110 = 8 ∧ sbox 3 0b100001 = 3 ∧ sbox 4 0b111111 = 3 ∧
    sbox 5 0b000000 = 12 ∧ sbox 6 0b011110 = 1 ∧ sbox 7 0b100001 = 2 := by decide
theorem test_sboxLayer : sboxLayer 0x6117BA866527 = 0x5C82B597 ∧ sboxLayer 0x657033B6AF3E = 0x9AA42898 := by decide
theorem test_feistel :
    feistel 0xF0AAF0AA 0x1B02EFFC7072 = 0x234AA9BB ∧ feistel 0x12345678 0x6F319B9C6CCE = 0x5A881187 := by decide +kernel
theorem test_feistel_on_sequences :
    seqFeistel (seqOf 0x00000000#32) (seqOf 0xFFFFFFFFFFFF#48) = some (seqOf 0x38DBF9CB#32) := by decide +kernel
theorem test_initialHalves : initialHalves 0x0123456789ABCDEF = (0xCC00CCFF, 0xF0AAF0AA) := by decide +kernel
theorem test_roundOnce :
    roundOnce 0x6F319B9C6CCE (0xCC00CCFF, 0xF0AAF0AA) = (0xF0AAF0AA, 0x97520F04) ∧
    roundOnce 0xCB3D8B0E17F5 (0xC28C960D, 0x43423234) =
      (0x43423234, 0x0A4CD995) := by decide +kernel
theorem test_finalBlock : finalBlock (0x5482A4BB, 0xCB29040D) = 0x53628D53821AC06A := by decide +kernel
theorem test_processBlock_doc :
    processBlock (defaultBuild .doc) 0x0123456789ABCDEF 0x139B15EF98DCF2BF .forward = 0x53628D53821AC06A := by decide +kernel
theorem test_processBlock_doc_reverse :
    processBlock (defaultBuild .doc) 0x0123456789ABCDEF 0x139B15EF98DCF2BF .reverse = 0x3A75F361BF1AAFFB := by decide +kernel
theorem test_processBlock_fips46 :
    processBlock (defaultBuild .fips46) 0x0123456789ABCDEF 0x133457799BBCDFF1 .forward = 0x85E813540F0AB405 := by decide +kernel

/-! ### Commands, registers and errors, one access each (95_test_vectors.md section 3.7) -/

theorem test_nop : statusAfter .nop State.reset = some 0x00000000 := by decide
theorem test_enc_without_key : statusAfter .enc State.reset = some 0x00000010 := by decide
theorem test_enc_accepted : statusAfter .enc (idle .doc) = some 0x00000005 := by decide +kernel
theorem test_dec_without_key : statusAfter .dec State.reset = some 0x00000010 := by decide
theorem test_dec_while_busy : statusAfter .dec (busyAt 0) = some 0x00000025 := by decide +kernel
theorem test_ldkey_empty : statusAfter .ldkey State.reset = some 0x00000008 ∧ keyAfter .ldkey State.reset = some 0 := by
  decide
theorem test_ldkey_short_key :
    keyAfter .ldkey { State.reset with key0 := 0x61626399, key1 := 0xDEADBEEF, keylen := 3 } = some 0x61B0986101010101 := by
  decide +kernel
theorem test_ldkey_drops_a_valid_key :
    statusAfter .ldkey { idle .doc with keylen := 0 } = some 0x00000008 ∧
    keyAfter .ldkey { idle .doc with keylen := 0 } = some 0x139B15EF98DCF2BF := by decide
theorem test_clrerr :
    statusAfter .clrerr
      { State.reset with errEmptyKey := true, errNoKey := true, errBusy := true, errIllegal := true } = some 0 := by decide
theorem test_illegal :
    statusAfter (.illegalOp5 0) State.reset = some 0x00000040 ∧ statusAfter (.illegalOp6 0) State.reset = some 0x00000040 ∧
    statusAfter (.illegalOp7 0) State.reset = some 0x00000040 ∧ statusAfter (.illegalRsvd 1 2) State.reset = some 0x00000040 := by
  decide
theorem test_wrCmd_illegal_before_busy : statusAfter (.wrCmd 0x0000000A) (busyAt 0) = some 0x00000045 := by decide +kernel
theorem test_wrCmd_illegal_high_bit : statusAfter (.wrCmd 0x80000002) State.reset = some 0x00000040 := by decide
theorem test_wrCmd_ldkey :
    keyAfter (.wrCmd 1) { idle .doc with masterKey := 0, keyValid := false, keylen := 255 } = some 0x139B15EF98DCF2BF := by
  decide +kernel
theorem test_wrKeylen : offsetAfter 0x10 (.wrKeylen 0xFFFFFF07) State.reset = some 0x00000007 := by decide
theorem test_wrKey :
    offsetAfter 0x08 (.wrKey0 0x13345779) State.reset = some 0x13345779 ∧
    offsetAfter 0x0C (.wrKey1 0x9BBCDF00) State.reset = some 0x9BBCDF00 := by decide
theorem test_wrDin :
    offsetAfter 0x14 (.wrDin0 0x01234567) State.reset = some 0x01234567 ∧
    offsetAfter 0x18 (.wrDin1 0x89ABCDEF) State.reset = some 0x89ABCDEF := by decide
theorem test_ignored_writes :
    offsetAfter 0x04 (.wrStatus 0xFFFFFFFF) State.reset = some 0 ∧ offsetAfter 0x1C (.wrDout0 1) State.reset = some 0 ∧
    offsetAfter 0x20 (.wrDout1 1) State.reset = some 0 ∧ offsetAfter 0x2C (.wrConfig 1) State.reset = some 0 ∧
    offsetAfter 0x24 (.wrMk0 1) (idle .doc) = some 0x139B15EF ∧ offsetAfter 0x28 (.wrMk1 1) (idle .doc) = some 0x98DCF2BF ∧
    offsetAfter 0x14 (.wrOther 0x15 0x11111111) (idle .doc) = some 0x01234567 := by decide
theorem test_reads :
    readBy .rdStatus State.reset = some 0 ∧ readBy .rdCmd (idle .doc) = some 0 ∧
    readBy .rdKey0 (idle .doc) = some 0x13345779 ∧ readBy .rdKey1 (idle .doc) = some 0x9BBCDF00 ∧
    readBy .rdKeylen (idle .doc) = some 7 ∧ readBy .rdDin0 (idle .doc) = some 0x01234567 ∧
    readBy .rdDin1 (idle .doc) = some 0x89ABCDEF ∧ readBy .rdMk0 (idle .doc) = some 0x139B15EF ∧
    readBy .rdMk1 (idle .doc) = some 0x98DCF2BF ∧ readBy (.rdOther 0x06) (idle .doc) = some 0 := by decide
theorem test_rdConfig :
    readBy .rdConfig (State.resetFor (defaultBuild .doc)) = some 0 ∧ readBy .rdConfig (State.resetFor (defaultBuild .fips46)) = some 1 := by decide
/-- The end state of program P1: STATUS and DOUT (95_test_vectors.md section 4). -/
theorem test_reads_of_a_result :
    readBy .rdStatus { idle .doc with done := true, round := 16 } = some 0x00001006 ∧
    readBy .rdDout0 { idle .doc with dout0 := 0x53628D53 } = some 0x53628D53 ∧
    readBy .rdDout1 { idle .doc with dout1 := 0x821AC06A } = some 0x821AC06A := by decide
/-- The sixteenth round step of V-TRACE-D (95_test_vectors.md sections 3.6, 3.7). -/
theorem test_last_round_step :
    (match step { busyAt 15 with l := 0x445E946A, r := 0x5482A4BB } with
      | .next t => some (t.l, t.r, outputBlock t, statusWord t)
      | _ => none) = some (0x5482A4BB, 0xCB29040D, 0x53628D53821AC06A, 0x00001006) := by decide +kernel
/-- The first round step of V-TRACE-D. -/
theorem test_first_round_step :
    (match step { busyAt 0 with l := 0xCC00CCFF, r := 0xF0AAF0AA } with
      | .next t => some (t.l, t.r, t.round, t.busy)
      | _ => none) = some (0xF0AAF0AA, 0x97520F04, 1, true) := by decide +kernel
/-- Program P5 line 5: a reset abandons the operation. -/
theorem test_reset_cycle :
    (match step { busyAt 2 with inputs := [.reset none] } with
      | .next t => some (statusWord t, t.masterKey, t.key0, t.din0)
      | _ => none) = some (0, 0, 0, 0) := by decide +kernel
/-- P3 line 16's reading of STATUS. -/
theorem test_status_bits :
    statusWord { busyAt 4 with errBusy := true, errIllegal := true } = 0x00000465 := by decide +kernel
theorem test_withFetchWord :
    (match step (State.reset.withFetchWord 48 0x11401234567) with
      | .next t => some (t.din0, t.inputs)
      | _ => none) = some (0x01234567, []) := by decide

/-! ### The host (95_test_vectors.md section 3.8) -/

theorem test_pad_lengths :
    ([1, 3, 7, 8, 9, 16].map fun n => (pad (List.replicate n 0)).length) = [8, 8, 8, 8, 16, 16] := by simp [pad]
/-- Program P6 lines 1 and 2. -/
theorem test_constructLines :
    constructLines [0x01, 0x23, 0x45, 0x67, 0x89, 0xAB, 0xCD, 0xEF] =
      [.bus 0x10801234567, .bus 0x10C89ABCDEF, .bus 0x11000000008, .bus 0x10000000001] := by decide
theorem test_construct_rejects : construct [] [1] = .error .emptyInput ∧ construct [1] [] = .error .emptyInput := by
  exact ⟨rfl, rfl⟩

/-! ### Witnesses: for each obligation with hypotheses, a state and operands that meet them together -/

theorem busyAt_inFlight (i : Nat) (h : i < 16) : InFlight 0x0123456789ABCDEF (busyAt i) := by
  have hi : (busyAt i).round.toNat = i := by
    show (BitVec.ofNat 5 i).toNat = i
    rw [BitVec.toNat_ofNat]
    omega
  refine ⟨rfl, by omega, ?_⟩
  rw [hi]
  rfl

theorem idle_parity : oddParity 0x139B15EF98DCF2BF := by unfold oddParity; decide

theorem busyAt_inv (i : Nat) (h : i < 16) : Inv (busyAt i) where
  busyRound _ := (busyAt_inFlight i h).round
  doneRound h := by cases h
  notBusyAndDone h := by cases h.2
  idleRound h := by cases h
  busyKey _ := rfl
  keyParity _ := idle_parity

theorem idle_inv (ks : KsMode) : Inv (idle ks) where
  busyRound h := by cases h
  doneRound h := by cases h
  notBusyAndDone h := by cases h.2
  idleRound _ _ := rfl
  busyKey _ := rfl
  keyParity _ := idle_parity

theorem busyAt_steps (i : Nat) (h : i < 16) (es : List Input) (hes : es = [] ∨ es.head? = some .core) :
    ∃ t, step { busyAt i with inputs := es } = .next t := by
  have hr : ∀ s : State, s.busy = true → s.round = (busyAt i).round → ∃ t, coreStep s = .next t := by
    intro s hb hr
    unfold coreStep
    rw [if_pos hb]
    exact roundStep_answers (by rw [hr]; exact (busyAt_inFlight i h).round)
  cases es with
  | nil => rw [step_of_nil rfl]; exact hr _ rfl rfl
  | cons e es =>
    obtain rfl : e = .core := by simpa using hes
    rw [step_of_cons rfl]
    exact hr _ rfl rfl

theorem witness_DecodeOfEncodeIsTheInstruction :
    Instr.wellFormed (.illegalRsvd 0x1FFFFFFF 4) = true ∧ Instr.wellFormed (.wrOther 0x30 0xFFFFFFFF) = true ∧
    Instr.wellFormed (.rdOther 0x01) = true ∧ Instr.wellFormed (.illegalOp5 0) = true := by decide
theorem witness_EncodeOfDecodeIsTheWord :
    BitVec.getLsbD (0x10000000000 : BitVec 41) 40 = true ∧ BitVec.getLsbD (0x0FFFFFFFFFF : BitVec 41) 40 = false := by
  decide
theorem witness_StepPerformsTheDecodedAccess :
    ({ State.reset with inputs := [.cmd 7] } : State).inputs = Frame.toInput (.cmd 7) :: [] ∧
    ({ State.reset with inputs := [.bus 0x10000000002, .core] } : State).inputs
      = Frame.toInput (.bus 0x10000000002) :: [.core] := by decide
theorem witness_PlacedTableWordIsPerformed :
    decodeTableWord 32 0x00000001 = some .ldkey ∧ decodeTableWord 48 0x11000000007 = some (.wrKeylen 7) ∧
    decodeTableWord 48 0x1FFFFFFFFFF = some (.wrOther 0xFF 0xFFFFFFFF) := by decide
theorem witness_EngineMovesExactlyWhenBusy :
    (State.reset.inputs = [] ∧ State.reset.busy = false) ∧
    ((busyAt 15).inputs = [] ∧ (busyAt 15).busy = true ∧ (busyAt 15).round.toNat < 16) ∧
    (∃ rest, ({ busyAt 0 with inputs := [.core] } : State).inputs = .core :: rest) := ⟨by decide, by decide, [], rfl⟩
theorem witness_ResetLeavesEveryRegisterZero : (0x04 : BitVec 8) ≠ 0x2C ∧ (0xFF : BitVec 8) ≠ 0x2C := by decide
theorem witness_ResetCycleLeadsToTheResetState :
    ({ busyAt 3 with inputs := [.reset (some 0x00400000000)] } : State).inputs = .reset (some 0x00400000000) :: [] := rfl
theorem witness_EveryStepKeepsTheInvariant :
    (Inv (busyAt 15) ∧ ∃ t, step (busyAt 15) = .next t) ∧ (Inv (busyAt 0) ∧ ∃ t, step (busyAt 0) = .next t) :=
  ⟨⟨busyAt_inv 15 (by decide), busyAt_steps 15 (by decide) [] (.inl rfl)⟩,
   ⟨busyAt_inv 0 (by decide), busyAt_steps 0 (by decide) [] (.inl rfl)⟩⟩
theorem witness_NoRunStops : Inv (busyAt 15) ∧ Inv (idle .fips46) := ⟨busyAt_inv 15 (by decide), idle_inv _⟩
theorem witness_ConfigIsHardwired :
    (∃ t, step { idle .fips46 with inputs := [.bus 0x12C00000000] } = .next t) ∧
    (∃ t, step { idle .doc with inputs := [.reset none] } = .next t) := ⟨⟨_, rfl⟩, ⟨_, rfl⟩⟩
/-- Every clause of LDKEY's rule: busy, no key bytes, key bytes (7 and 255 of them), two states with the same bytes. -/
theorem witness_LdkeyFollowsItsRule :
    (busyAt 15).busy = true ∧
    (State.reset.busy = false ∧ State.reset.keylen = 0) ∧
    ((idle .doc).busy = false ∧ (idle .doc).keylen ≠ 0 ∧ 7 ≤ (idle .doc).keylen.toNat ∧
      (∃ t, exec .ldkey (idle .doc) = .next t) ∧ ∃ u, exec .ldkey { idle .doc with keylen := 7 } = .next u) ∧
    (∃ t, exec (.wrCmd 1) { idle .doc with keylen := 255 } = .next t) ∧
    ((∀ j < min (idle .doc).keylen.toNat 8, keyByte { idle .doc with key1 := 0x9BBCDF55 } j = keyByte (idle .doc) j) ∧
      ∃ t, exec .ldkey { idle .doc with key1 := 0x9BBCDF55 } = .next t) :=
  ⟨rfl, by decide, ⟨rfl, by decide, by decide, ⟨_, rfl⟩, ⟨_, rfl⟩⟩, ⟨_, rfl⟩, by decide, ⟨_, rfl⟩⟩
theorem witness_EncAndDecStartABlockOperation :
    (busyAt 0).busy = true ∧ (State.reset.busy = false ∧ State.reset.keyValid = false) ∧
    ((idle .doc).busy = false ∧ (idle .doc).keyValid = true) := by decide
theorem witness_BusyRefusesLdkeyEncAndDecOnly : (busyAt 0).busy = true ∧ (busyAt 15).busy = true := ⟨rfl, rfl⟩
theorem witness_IllegalWordsSetErrIllegalOnly : (5 : Word).toNat > 4 ∧ (0xFFFFFFFF : Word).toNat > 4 := by decide
theorem witness_WriteToCmdIssuesItsCommand :
    (0x80000002 : Word).extractLsb' 3 29 ≠ 0 ∧ (0x00000005 : Word).extractLsb' 0 3 = 5 ∧
    (0x00000006 : Word).extractLsb' 0 3 = 6 ∧ (0x00000007 : Word).extractLsb' 0 3 = 7 ∧
    (∀ op < 5, (BitVec.ofNat 32 op).extractLsb' 3 29 = 0 ∧ (BitVec.ofNat 32 op).extractLsb' 0 3 = BitVec.ofNat 3 op) ∧
    ((0x03 : BitVec 8) = 0x01 ∨ (0x03 : BitVec 8) = 0x02 ∨ (0x03 : BitVec 8) = 0x03) := by decide
theorem witness_AtMostOneErrorIsRaised : ∃ t, exec .enc State.reset = .next t ∧
    errorFlag .noKey State.reset = false ∧ errorFlag .noKey t = true := ⟨_, rfl, by decide, by decide⟩
theorem witness_ErrorsStayUntilClrerrOrReset :
    ∃ t, step { State.reset with errBusy := true, inputs := [.cmd 2] } = .next t ∧
      errorFlag .busyViolation { State.reset with errBusy := true, inputs := [.cmd 2] } = true := ⟨_, rfl, rfl⟩
/-- Each of the four errors is raised by some step. -/
theorem witness_ErrorsAreRaisedByTheirCauses :
    (∃ t, step { State.reset with inputs := [.cmd 1] } = .next t ∧ errorFlag .emptyKey State.reset = false ∧
      errorFlag .emptyKey t = true) ∧
    (∃ t, step { State.reset with inputs := [.cmd 3] } = .next t ∧ errorFlag .noKey t = true) ∧
    (∃ t, step { busyAt 1 with inputs := [.cmd 2] } = .next t ∧ errorFlag .busyViolation (busyAt 1) = false ∧
      errorFlag .busyViolation t = true) ∧
    (∃ t, step { State.reset with inputs := [.cmd 5] } = .next t ∧ errorFlag .illegalCommand t = true) :=
  ⟨⟨_, rfl, rfl, rfl⟩, ⟨_, rfl, rfl⟩, ⟨_, rfl, rfl, rfl⟩, ⟨_, rfl, rfl⟩⟩
theorem witness_OnlyCommandsChangeStatus : ∃ t, Instr.wellFormed (.wrCmd 2) = true ∧
    exec (.wrCmd 2) State.reset = .next t ∧ statusWord t ≠ statusWord State.reset := ⟨_, rfl, rfl, by decide⟩
theorem witness_OnlyTheWrittenOffsetReadsDifferently :
    (∃ t, exec (decode (.bus (1#1 ++ 0x08#8 ++ 0xFFFFFFFF#32))) State.reset = .next t) ∧ (0x0C : BitVec 8) ≠ 0x08 :=
  ⟨⟨_, rfl⟩, by decide⟩
theorem witness_IgnoredWritesChangeNothing :
    (0x30 ≤ (0x30 : BitVec 8).toNat) ∧ (0x30 ≤ (0xFF : BitVec 8).toNat) ∧ (0x2D : BitVec 8).extractLsb' 0 2 ≠ 0 := by decide
theorem witness_MisalignedAccessesDoNothing :
    (0x01 : BitVec 8).extractLsb' 0 2 ≠ 0 ∧ (0xFF : BitVec 8).extractLsb' 0 2 ≠ 0 := by decide
theorem witness_ReadsReturnTheRegisterAndChangeNothingElse :
    0x30 ≤ (0x30 : BitVec 8).toNat ∧ (0x2F : BitVec 8).extractLsb' 0 2 ≠ 0 := by decide
theorem witness_MasterKeyChangesOnlyByLdkeyOrReset :
    (∃ t, step { idle .doc with masterKey := 0, inputs := [.cmd 1] } = .next t ∧ t.masterKey ≠ 0) ∧
    (∃ t, step { idle .doc with inputs := [.reset none] } = .next t ∧ t.masterKey ≠ (idle .doc).masterKey) :=
  ⟨⟨_, rfl, by decide +kernel⟩, ⟨_, rfl, by decide⟩⟩
theorem witness_OutputChangesOnlyAtCompletionOrReset :
    (∃ t, step { idle .doc with dout0 := 1, inputs := [.reset none] } = .next t ∧
      outputBlock t ≠ outputBlock { idle .doc with dout0 := 1, inputs := [.reset none] }) ∧
    (∃ t, step { busyAt 15 with l := 0x445E946A, r := 0x5482A4BB } = .next t ∧
      outputBlock t ≠ outputBlock (busyAt 15)) := ⟨⟨_, rfl, by decide⟩, ⟨_, rfl, by decide +kernel⟩⟩
theorem witness_PackAndUnpackAreInverse : packBits (zeros 8) = some [0] := by decide
theorem witness_NumberToBitsIsInvertedByBitsToNumber : 255 < 256 ∧ 255 ≤ 255 ∧ 15 ≤ 15 := by decide
theorem witness_RotationsComposeAndMoveTowardIndexZero :
    (zeros 64).length = 64 ∧ 64 < 65 ∧ 64 ≤ 64 ∧ 1 ≤ 64 := by decide
theorem witness_InitialAndFinalPermutationAreInverse : (zeros 64).length = 64 := by decide
theorem witness_OnlyTheFirstSevenKeyBytesMatter :
    (7 ≤ (List.replicate 7 (1 : Byte)).length ∧ 7 ≤ (List.replicate 7 (1 : Byte) ++ [5]).length ∧
      (List.replicate 7 (1 : Byte)).take 7 = (List.replicate 7 (1 : Byte) ++ [5]).take 7) ∧
    ([1, 2, 3] : List Byte).length + 4 ≤ 7 := by decide
theorem witness_DocFixesHalfAKeyAndFipsIgnoresParity : ∀ p < 64, p % 8 ≠ 7 →
    (0x129B15EF98DCF2BF : Block).getMsbD p = (0x139B15EF98DCF2BF : Block).getMsbD p := by decide
theorem witness_RoundStepFollowsItsRule :
    (∀ i < 16, (busyAt i).round.toNat < 16 ∧ (busyAt i).busy = true) ∧ (busyAt 14).round.toNat < 15 ∧
      (busyAt 15).round = 15 :=
  ⟨fun i hi => ⟨(busyAt_inFlight i hi).round, rfl⟩, by decide, rfl⟩
theorem witness_OperationInFlightIsCarriedToItsResult : ∀ i < 16,
    InFlight 0x0123456789ABCDEF (busyAt i) ∧ ¬nextIsReset (busyAt i) ∧ ∃ t, step (busyAt i) = .next t :=
  fun i hi => ⟨busyAt_inFlight i hi, (fun ⟨_, h⟩ => by cases h), busyAt_steps i hi [] (.inl rfl)⟩
theorem witness_AcceptedOperationTakesSixteenEngineSteps :
    (idle .doc).busy = false ∧ (idle .doc).keyValid = true ∧ (idle .doc).inputs = [] := by decide
theorem witness_EveryOperationCompletesUnderAnySchedule :
    InFlight 0x0123456789ABCDEF { busyAt 0 with inputs := [.cmd 3, .cycle none, .poll 0] } ∧
    ∀ e ∈ [Input.cmd 3, .cycle none, .poll 0], ∀ access, e ≠ .reset access := by
  refine ⟨⟨rfl, by decide, (busyAt_inFlight 0 (by decide)).halves⟩, fun e he access h => ?_⟩
  subst h
  simp at he
theorem witness_AccessesWhileBusyLeaveTheEngineAlone :
    (busyAt 7).busy = true ∧ ∃ t, exec .dec (busyAt 7) = .next t := ⟨rfl, _, rfl⟩
theorem witness_ClockCycleIsAccessThenEngineStep :
    (∃ a, cycleAccess (some 0x10000000003) (busyAt 15) = .next a ∧ (busyAt 15).busy = true ∧
      (busyAt 15).round.toNat < 16) ∧
    (∃ a, cycleAccess none (idle .doc) = .next a ∧ (idle .doc).busy = false) :=
  ⟨⟨_, rfl, rfl, by decide⟩, ⟨_, rfl, rfl⟩⟩
theorem witness_ResultDependsOnBlockAndKeyOnly : let s := idle .doc; let s' := { idle .doc with key0 := 0, dout0 := 9 }
    s.build = s'.build ∧ s.masterKey = s'.masterKey ∧ s.din0 = s'.din0 ∧ s.din1 = s'.din1 ∧ s.busy = false ∧ s'.busy = false ∧
    s.keyValid = true ∧ s'.keyValid = true ∧ s.inputs = [] ∧ s'.inputs = [] := by decide
theorem witness_PollEndsWithTheCompletedOperation :
    InFlight 0x0123456789ABCDEF { busyAt 0 with inputs := [.poll 3] } :=
  ⟨rfl, by decide, (busyAt_inFlight 0 (by decide)).halves⟩
theorem witness_ConstructLoadsTheKeyOrRejectsEmptyInput :
    (([] : List Byte) = [] ∨ ([1] : List Byte) = []) ∧ (([1] : List Byte) ≠ [] ∧ ([1] : List Byte) ≠ []) ∧
    State.reset.busy = false := by decide
theorem witness_PadReachesTheNextMultipleOfEight : (List.replicate 8 (0 : Byte)).length % 8 = 0 := by decide
theorem witness_ChunkThroughTheCoreIsProcessBlock :
    (idle .fips46).busy = false ∧ (idle .fips46).keyValid = true := by decide
theorem witness_OrchestratorRoundTripReturnsThePaddedText :
    ([0x61, 0x62, 0x63] : List Byte) ≠ [] ∧ State.reset.busy = false ∧ (List.replicate 16 (0 : Byte)).length % 8 = 0 := by
  decide

end Sys2Proof.Tests
end

/-! SUPPORT and the proofs of the statements about the state (10_state.md). -/

namespace Sys2Proof.Machine

variable {s t : State}

/-! ### Offsets and reads -/

/-- A read of a register's own offset is the register's value (20_memory.md R62). -/
@[simp] theorem readOffset_offset (reg : RegName) (s : State) : readOffset reg.offset s = registerValue reg s := by
  rw [readOffset, selectRegister_offset]

theorem readOffset_of_none {a : BitVec 8} (h : selectRegister a = none) (s : State) : readOffset a s = 0 := by
  rw [readOffset, h]

/-! ### The reset state (10_state.md R35) -/

theorem statusWord_resetFor (build : Build) : statusWord (State.resetFor build) = 0 := by
  have fields : statusWord (State.resetFor build) =
      0#19 ++ 0#5 ++ 0#1 ++ 0#1 ++ 0#1 ++ 0#1 ++ 0#1 ++ 0#1 ++ 0#1 ++ 0#1 := rfl
  rw [fields]
  decide

theorem registerValue_resetFor {reg : RegName} (h : reg ≠ .config) (build : Build) :
    registerValue reg (State.resetFor build) = 0 := by
  cases reg with
  | status => exact statusWord_resetFor build
  | config => exact absurd rfl h
  | mk0 => exact (show firstHalf 0 = 0 by decide)
  | mk1 => exact (show secondHalf 0 = 0 by decide)
  | keylen => exact BitVec.setWidth_zero 32 8
  | cmd | key0 | key1 | din0 | din1 | dout0 | dout1 => rfl

theorem readOffset_resetFor {a : BitVec 8} (h : a ≠ 0x2C) (build : Build) :
    readOffset a (State.resetFor build) = 0 := by
  cases hsel : selectRegister a with
  | none => exact readOffset_of_none hsel _
  | some reg =>
    obtain rfl := offset_of_selectRegister hsel
    have notConfig : reg ≠ .config := by rintro rfl; exact h rfl
    rw [readOffset_offset, registerValue_resetFor notConfig]

/-- Settles O8: a register's value at reset, for the register each offset selects. -/
theorem resetLeavesEveryRegisterZero : Obligations.ResetLeavesEveryRegisterZero := by
  unfold Obligations.ResetLeavesEveryRegisterZero
  intro build addr
  exact ⟨fun h => readOffset_resetFor h build, readOffset_offset .config _,
    seqOf_zero 64, seqOf_zero 32, seqOf_zero 32⟩

/-! ### A command and the bus write that issues it (45_commands.md R200) -/

/-- The write of a command word performs the command that the word decodes to: row by row of the decoder, the four
rows of ILLEGAL first. -/
theorem issueCommand_eq_exec (w : Word) (s : State) : issueCommand w s = exec (decodeCommand w) s := by
  simp only [issueCommand, decodeCommand]
  by_cases op5 : w.extractLsb' 0 3 = 5
  · rw [if_pos (.inr (.inl op5)), if_pos op5]; rfl
  by_cases op6 : w.extractLsb' 0 3 = 6
  · rw [if_pos (.inr (.inr (.inl op6))), if_neg op5, if_pos op6]; rfl
  by_cases op7 : w.extractLsb' 0 3 = 7
  · rw [if_pos (.inr (.inr (.inr op7))), if_neg op5, if_neg op6, if_pos op7]; rfl
  by_cases reserved : w.extractLsb' 3 29 ≠ 0
  · rw [if_pos (.inl reserved), if_neg op5, if_neg op6, if_neg op7, if_pos reserved]; rfl
  rw [if_neg (not_or.2 ⟨reserved, not_or.2 ⟨op5, not_or.2 ⟨op6, op7⟩⟩⟩), if_neg op5, if_neg op6, if_neg op7,
    if_neg reserved]
  split_ifs <;> rfl

/-- A command is never itself a bus write. -/
theorem decodeCommand_ne_wrCmd (w v : Word) : decodeCommand w ≠ .wrCmd v := by
  simp only [decodeCommand]
  split_ifs <;> nofun

theorem issued_ne_wrCmd (i : Instr) (v : Word) : issued i ≠ .wrCmd v := by
  cases i with
  | wrCmd w => exact decodeCommand_ne_wrCmd w v
  | _ => nofun

theorem exec_issued (i : Instr) (s : State) : exec (issued i) s = exec i s := by
  cases i with
  | wrCmd w => exact (issueCommand_eq_exec w s).symm
  | _ => rfl

/-! ### What leaves MK alone (10_state.md R29) -/

theorem startBlock_masterKey {d : Direction} (h : startBlock d s = .next t) : t.masterKey = s.masterKey := by
  obtain ⟨-, rfl⟩ | ⟨-, -, rfl⟩ | ⟨-, -, rfl⟩ := startBlock_cases h <;> rfl

theorem roundStep_masterKey (h : roundStep s = .next t) : t.masterKey = s.masterKey := by
  obtain ⟨-, ⟨-, rfl⟩ | ⟨-, rfl⟩⟩ := roundStep_cases h <;> rfl

/-- An instruction that changes MK is LDKEY, with BUSY = 0 and KEYLEN not 0. -/
theorem exec_changes_masterKey {i : Instr} (h : exec i s = .next t) (change : t.masterKey ≠ s.masterKey) :
    issued i = .ldkey ∧ s.busy = false ∧ s.keylen ≠ 0 := by
  rw [← exec_issued] at h
  have notWrite := issued_ne_wrCmd i
  generalize issued i = command at h notWrite ⊢
  cases command with
  | ldkey =>
    obtain ⟨-, rfl⟩ | ⟨-, -, rfl⟩ | ⟨idle, key, -⟩ := execLdkey_cases h
    · exact absurd rfl change
    · exact absurd rfl change
    · exact ⟨rfl, idle, key⟩
  | enc => exact absurd (startBlock_masterKey h) change
  | dec => exact absurd (startBlock_masterKey h) change
  | wrCmd w => exact absurd rfl (notWrite w)
  | _ => cases h; exact absurd rfl change

/-- The instruction of the next step, from its access. -/
theorem nextInstr_of_nextAccess {i : Instr} (h : nextAccess s = some i) : nextInstr s = some (issued i) := by
  rw [nextInstr, h, Option.map_some]

/-- A step that changes MK is a reset cycle or a successful LDKEY. -/
theorem step_changes_masterKey (h : step s = .next t) (change : t.masterKey ≠ s.masterKey) :
    nextIsReset s ∨ (nextInstr s = some .ldkey ∧ s.busy = false ∧ s.keylen ≠ 0) := by
  have loads {i : Instr} {u : State} (next : nextAccess s = some i) (hu : exec i (dropInput s) = .next u)
      (hc : u.masterKey ≠ s.masterKey) : nextInstr s = some .ldkey ∧ s.busy = false ∧ s.keylen ≠ 0 := by
    obtain ⟨ldkey, rest⟩ := exec_changes_masterKey hu hc
    exact ⟨ldkey ▸ nextInstr_of_nextAccess next, rest⟩
  cases step_effect h with
  | reset access head => exact .inl ⟨access, head⟩
  | access next hu => exact .inr (loads next hu change)
  | accessAndRound next busy hu hc => exact .inr (loads next hu change)
  | pollAgain gap head busy => exact absurd rfl change
  | idle none noReset idle => exact absurd rfl change
  | round none noReset busy hc => exact absurd (roundStep_masterKey hc) change

/-- Settles O31: the halves of MK are what MK0 and MK1 read, and the inversion of the step says what changes MK. -/
theorem masterKeyChangesOnlyByLdkeyOrReset : Obligations.MasterKeyChangesOnlyByLdkeyOrReset := by
  unfold Obligations.MasterKeyChangesOnlyByLdkeyOrReset
  exact fun s _ => ⟨seqOf_halves s.masterKey, step_changes_masterKey⟩

end Sys2Proof.Machine

/-! SUPPORT and the proofs of the statements about the bit-sequence utilities (40_bit_utilities.md). -/

namespace Sys2Proof.Machine

/-! ### Rotation (40_bit_utilities.md R106): on a sequence of the right length it is `List.rotate` -/

theorem rotateLeft64_eq_rotate {s : BitSeq} {n : Nat} (hs : s.length = 64) (hn : n ≤ 64) :
    rotateLeft64 s n = some (s.rotate n) := by
  rw [rotateLeft64, rotateLeftSeq, if_pos ⟨hs, hn⟩, Option.some.injEq]
  refine List.ext_getElem (by simp [hs]) fun j hj _ => ?_
  have inRange : (j + n) % 64 < s.length := hs.symm ▸ Nat.mod_lt (j + n) (by decide : 0 < 64)
  simp only [List.getElem_map, List.getElem_range, List.getElem_rotate, List.getD_eq_getElem _ _ inRange, hs]

theorem rotateLeft64_of_gt {n : Nat} (hn : 64 < n) (s : BitSeq) : rotateLeft64 s n = none :=
  if_neg fun h => Nat.not_le.2 hn h.2

/-- The unit at index `j` comes from `n` places further on, cyclically. -/
theorem getElem?_rotate_of_length {s : BitSeq} (hs : s.length = 64) (n : Nat) {j : Nat} (hj : j < 64) :
    (s.rotate n)[j]? = s[(j + n) % 64]? := by
  rw [List.getElem?_rotate (hs ▸ hj), hs]

/-- Two rotations add up, and a full turn of 64 drops out. -/
theorem rotateLeft64_rotateLeft64 {s : BitSeq} {n m : Nat} (hs : s.length = 64) (hn : n ≤ 64) (hm : m ≤ 64) :
    (rotateLeft64 s n).bind (rotateLeft64 · m) = rotateLeft64 s ((n + m) % 64) := by
  have reduced : (n + m) % 64 ≤ 64 := (Nat.mod_lt _ (by decide)).le
  calc (rotateLeft64 s n).bind (rotateLeft64 · m)
      = rotateLeft64 (s.rotate n) m := by rw [rotateLeft64_eq_rotate hs hn, Option.bind_some]
    _ = some (s.rotate (n + m)) := by
      rw [rotateLeft64_eq_rotate ((List.length_rotate s n).trans hs) hm, List.rotate_rotate]
    _ = some (s.rotate ((n + m) % 64)) := by rw [← List.rotate_mod s (n + m), hs]
    _ = rotateLeft64 s ((n + m) % 64) := (rotateLeft64_eq_rotate hs reduced).symm

/-- Settles O36: within its contract `rotateLeft64` is the library's rotation of a list of 64 units. -/
theorem rotationsComposeAndMoveTowardIndexZero : Obligations.RotationsComposeAndMoveTowardIndexZero := by
  unfold Obligations.RotationsComposeAndMoveTowardIndexZero
  intro s n m hs
  have fullTurn : s.rotate 64 = s := hs ▸ List.rotate_length s
  refine ⟨(rotateLeft64_of_gt · s), fun hn => ⟨s.rotate n, rotateLeft64_eq_rotate hs hn,
      (List.length_rotate s n).trans hs, fun j => getElem?_rotate_of_length hs n, fun positive => ?_⟩, ?_, ?_,
    rotateLeft64_rotateLeft64 hs⟩
  · rw [getElem?_rotate_of_length hs n (by omega), Nat.sub_add_cancel hn]
  · rw [rotateLeft64_eq_rotate hs (by decide), List.rotate_zero]
  · rw [rotateLeft64_eq_rotate hs le_rfl, fullTurn]

/-! ### Numbers as eight units (40_bit_utilities.md R103): the sequence of a byte -/

@[simp] theorem bitsToNumber_seqOf {n : Nat} (w : BitVec n) : bitsToNumber (seqOf w) = w.toNat := by
  have bound : bitsToNumber (seqOf w) < 2 ^ n := by simpa using bitsToNumber_lt (seqOf w)
  calc bitsToNumber (seqOf w)
      = (wordOf n (seqOf w)).toNat := by rw [wordOf, BitVec.toNat_ofNat, Nat.mod_eq_of_lt bound]
    _ = w.toNat := by rw [wordOf_seqOf]

theorem numberToBits_eq_seqOf {n : Nat} (hn : n ≤ 255) : numberToBits n = some (seqOf (BitVec.ofNat 8 n)) := by
  rw [numberToBits, if_pos hn, seqOf, Option.some.injEq]
  refine List.map_congr_left fun j hj => ?_
  have inByte : j < 8 := List.mem_range.1 hj
  have mirrored : 8 - 1 - j < 8 := by omega
  simp only [BitVec.getMsbD, BitVec.getLsbD_ofNat, inByte, mirrored, decide_true, Bool.true_and]

theorem numberToBits_of_gt {n : Nat} (hn : 255 < n) : numberToBits n = none :=
  if_neg (Nat.not_le.2 hn)

/-- A number of at most 15 has a high nibble of zeros. -/
theorem ofNat_eq_zero_append {n : Nat} (hn : n ≤ 15) : BitVec.ofNat 8 n = 0#4 ++ BitVec.ofNat 4 n := by
  apply BitVec.eq_of_toNat_eq
  rw [BitVec.toNat_append]
  simp
  omega

theorem take_seqOf_ofNat {n : Nat} (hn : n ≤ 15) : (seqOf (BitVec.ofNat 8 n)).take 4 = zeros 4 := by
  rw [ofNat_eq_zero_append hn, seqOf_append, List.take_left' (length_seqOf _)]
  exact seqOf_zero 4

/-- Settles O35: the eight units are the sequence of the byte `n`. -/
theorem numberToBitsIsInvertedByBitsToNumber : Obligations.NumberToBitsIsInvertedByBitsToNumber := by
  unfold Obligations.NumberToBitsIsInvertedByBitsToNumber
  refine fun n => ⟨numberToBits_of_gt, fun hn =>
    ⟨seqOf (BitVec.ofNat 8 n), numberToBits_eq_seqOf hn, length_seqOf _, ?_, take_seqOf_ofNat⟩⟩
  rw [bitsToNumber_seqOf, BitVec.toNat_ofNat, Nat.mod_eq_of_lt (by omega)]

end Sys2Proof.Machine

/-! SUPPORT and the proofs of the statements about the key schedule (42_key_schedule.md). -/

namespace Sys2Proof.Machine

/-! ### The content of the key (42_key_schedule.md R140) -/

/-- Truncation and zero-extension both leave the first 56 units as they read, 0 past the end of the key bytes. -/
theorem getD_keyContent (bytes : List Byte) {i : Nat} (hi : i < 56) :
    (keyContent bytes).getD i false = (unpackBits bytes).getD i false := by
  simp only [keyContent, List.getD_eq_getElem?_getD]
  split
  case isTrue => rw [List.getElem?_take_of_lt hi]
  case isFalse short =>
    by_cases inside : i < (unpackBits bytes).length
    · rw [List.getElem?_append_left inside]
    · have past := Nat.le_of_not_lt inside
      rw [List.getElem?_append_right past, List.getElem?_eq_none past, zeros, List.getElem?_replicate_of_lt (by omega)]
      rfl

theorem keyGroup_keyContent (bytes : List Byte) {g : Nat} (hg : g < 8) :
    keyGroup (keyContent bytes) g = (List.range 7).map fun j => (unpackBits bytes).getD (7 * g + j) false := by
  refine List.ext_getElem (by simp [length_keyGroup bytes g hg]) fun j _ hj => ?_
  have inGroup : j < 7 := by simpa using hj
  have inContent : 7 * g + j < (keyContent bytes).length := by rw [length_keyContent]; omega
  rw [List.getElem_map, List.getElem_range, ← getD_keyContent bytes (by omega), List.getD_eq_getElem _ _ inContent]
  simp only [keyGroup, List.getElem_take, List.getElem_drop]

/-! ### The master key, one byte for each group (42_key_schedule.md R140) -/

/-- The first `g` of equally long pieces are dropped by dropping their units. -/
theorem drop_flatMap_of_length {α β : Type} {f : α → List β} {k : Nat} {l : List α}
    (hf : ∀ a ∈ l, (f a).length = k) (g : Nat) : (l.flatMap f).drop (k * g) = (l.drop g).flatMap f := by
  induction l generalizing g with
  | nil => simp
  | cons a l ih =>
    obtain ⟨head, tail⟩ := List.forall_mem_cons.1 hf
    cases g with
    | zero => rfl
    | succ g =>
      rw [List.flatMap_cons, List.drop_succ_cons, ← ih tail g, Nat.mul_succ, Nat.add_comm, ← head,
        List.drop_length_add_append]

/-- Byte `g` of a derived master key: the group's seven units, then their parity unit. -/
def masterKeyByte (bytes : List Byte) (g : Nat) : BitSeq :=
  keyGroup (keyContent bytes) g ++ [parityUnit (keyGroup (keyContent bytes) g)]

theorem seqMasterKey_eq_flatMap (bytes : List Byte) :
    seqMasterKey bytes = (List.range 8).flatMap (masterKeyByte bytes) := rfl

theorem length_masterKeyByte (bytes : List Byte) {g : Nat} (hg : g < 8) : (masterKeyByte bytes g).length = 8 := by
  rw [masterKeyByte, List.length_append, length_keyGroup bytes g hg, List.length_singleton]

theorem byte_seqMasterKey (bytes : List Byte) {g : Nat} (hg : g < 8) :
    ((seqMasterKey bytes).drop (8 * g)).take 8 = masterKeyByte bytes g := by
  have pieces : ∀ a ∈ List.range 8, (masterKeyByte bytes a).length = 8 :=
    fun a ha => length_masterKeyByte bytes (List.mem_range.1 ha)
  have inRange : g < (List.range 8).length := by rwa [List.length_range]
  calc ((seqMasterKey bytes).drop (8 * g)).take 8
      = (((List.range 8).drop g).flatMap (masterKeyByte bytes)).take 8 := by
        rw [seqMasterKey_eq_flatMap, drop_flatMap_of_length pieces]
    _ = masterKeyByte bytes g := by
        rw [List.drop_eq_getElem_cons inRange, List.getElem_range, List.flatMap_cons,
          List.take_left' (length_masterKeyByte bytes hg)]

theorem getMsbD_deriveMasterKey (bytes : List Byte) {g j : Nat} (hg : g < 8) (hj : j < 8) :
    (deriveMasterKey bytes).getMsbD (8 * g + j) = (masterKeyByte bytes g).getD j false := by
  rw [deriveMasterKey, getMsbD_wordOf (length_seqMasterKey bytes), ← byte_seqMasterKey bytes hg]
  simp only [List.getD_eq_getElem?_getD, List.getElem?_take_of_lt hj, List.getElem?_drop]

theorem parityUnit_map_range (f : Nat → BitUnit) (n : Nat) :
    parityUnit ((List.range n).map f) = decide ((List.range n).countP f % 2 = 0) := by
  simp only [parityUnit, List.count, List.countP_map, Function.comp_def, beq_true]

/-- Settles O38: byte `g` of the master key is the group's units, read off the key bytes, then the parity unit. -/
theorem masterKeyIsTheContentWithParity : Obligations.MasterKeyIsTheContentWithParity := by
  unfold Obligations.MasterKeyIsTheContentWithParity
  intro bytes g hg
  have groupLength : (keyGroup (keyContent bytes) g).length = 7 := length_keyGroup bytes g hg
  refine ⟨fun j hj => ?content, ?parity⟩
  case content =>
    rw [getMsbD_deriveMasterKey bytes hg (by omega), masterKeyByte, List.getD_append _ _ _ _ (groupLength ▸ hj),
      keyGroup_keyContent bytes hg, List.getD_eq_getElem _ _ (by simpa using hj), List.getElem_map, List.getElem_range]
  case parity =>
    rw [getMsbD_deriveMasterKey bytes hg (by decide), masterKeyByte, List.getD_append_right _ _ _ _ groupLength.le,
      groupLength, List.getD_cons_zero, keyGroup_keyContent bytes hg, parityUnit_map_range]

end Sys2Proof.Machine

/-! SUPPORT and the proofs of the statements about the block core (44_block_core.md). -/

namespace Sys2Proof.Machine

/-! ### The round key on sequences and on words (42_key_schedule.md R143, R144) -/

theorem seqOf_keyBuffer (c d : BitVec 28) : seqOf c ++ seqOf d ++ zeros 8 = seqOf (c ++ d ++ (0 : BitVec 8)) := by
  rw [seqOf_append, seqOf_append, seqOf_zero]

theorem seqRoundKey_seqOf (ks : KsMode) (mk : Block) (sched : ShiftSchedule) (i : Fin 16) :
    seqRoundKey ks (seqOf mk) sched i = some (seqOf (deriveRoundKey ks mk sched i)) := by
  have amount : sched[i].val ≤ 28 := Nat.le_of_lt_succ sched[i].isLt
  cases ks with
  | doc =>
    simp only [seqRoundKey, requireLength_seqOf, applyTable_PC1C, applyTable_PC1D, Option.bind_eq_bind,
      Option.bind_some, rotateLeft64_seqOf mk sched[i].val (by omega), seqOf_keyBuffer]
    exact applyTable_PC2 (roundBuffer .doc mk sched[i].val)
  | fips46 =>
    simp only [seqRoundKey, requireLength_seqOf, applyTable_PC1C, applyTable_PC1D, Option.bind_eq_bind,
      Option.bind_some, rotateLeft28_seqOf _ sched[i].val amount, seqOf_keyBuffer]
    exact applyTable_PC2 (roundBuffer .fips46 mk sched[i].val)

/-! ### The round function on sequences and on words (43_feistel.md R168, R169) -/

/-- The high nibble of the eight units is dropped, the low one is the S-box's output (90_conflicts.md C3). -/
theorem seqSbox_seqOf (g : Fin 8) (grp : BitVec 6) : seqSbox g (seqOf grp) = some (seqOf (sbox g grp)) := by
  have entry : seqSbox g (seqOf grp) = (numberToBits (sboxEntry g (bitsToNumber [grp.getMsbD 0, grp.getMsbD 5])
      (bitsToNumber [grp.getMsbD 1, grp.getMsbD 2, grp.getMsbD 3, grp.getMsbD 4]))).map (List.drop 4) := rfl
  have nibble := sboxEntry_lt g (bitsToNumber [grp.getMsbD 0, grp.getMsbD 5])
    (bitsToNumber [grp.getMsbD 1, grp.getMsbD 2, grp.getMsbD 3, grp.getMsbD 4])
  rw [entry, numberToBits_eq_seqOf (by omega), ofNat_eq_zero_append (by omega), seqOf_append, Option.map_some,
    List.drop_left' (length_seqOf _), sbox]

theorem seqSboxes_seqOf (x : BitVec 48) (groups : List (Fin 8)) :
    seqSboxes (seqOf x) groups = some (groups.flatMap fun g => seqOf (sbox g (sixBits x g))) := by
  induction groups with
  | nil => rfl
  | cons g groups ih =>
    simp only [seqSboxes, seqOf_sixBits, seqSbox_seqOf, ih, Option.bind_eq_bind, Option.bind_some, List.flatMap_cons]

/-- The eight S-boxes in order are the S-box layer of the word. -/
theorem seqSboxes_eq_sboxLayer (x : BitVec 48) :
    seqSboxes (seqOf x) (List.finRange 8) = some (seqOf (sboxLayer x)) := by
  rw [seqSboxes_seqOf, seqOf_sboxLayer, Option.some.injEq]
  simp [List.finRange_succ]

theorem seqFeistel_seqOf (r : Word) (k : RoundKey) : seqFeistel (seqOf r) (seqOf k) = some (seqOf (feistel r k)) := by
  have mixed : xor48 (seqOf (permute 48 tableE r)) (seqOf k) = some (seqOf (permute 48 tableE r ^^^ k)) :=
    xorSeq_seqOf _ _
  simp only [seqFeistel, requireLength_seqOf, applyTable_E, mixed, seqSboxes_eq_sboxLayer, applyTable_P,
    Option.bind_eq_bind, Option.bind_some, feistel]

/-! ### The engine's step (44_block_core.md R183, R185) -/

/-- The result is FP of the preoutput `R ++ L`, in the halves that DOUT0 and DOUT1 take (44_block_core.md R182). -/
theorem applyTable_FP_preoutput (h : Halves) :
    applyTable tableFP (seqOf h.2 ++ seqOf h.1) =
      some (seqOf (firstHalf (finalBlock h)) ++ seqOf (secondHalf (finalBlock h))) := by
  rw [← seqOf_append, seqOf_halves]
  exact applyTable_FP (h.2 ++ h.1)

theorem coreStep_of_round_ne_last {s : State} (busy : s.busy = true) (h : s.round.toNat < 16)
    (notLast : s.round ≠ 15) :
    coreStep s = .next (advanceRound (roundKey s ⟨s.round.toNat, h⟩) s) := by
  rw [coreStep, if_pos busy, roundStep, dif_pos h, if_neg notLast]

theorem coreStep_of_round_last {s : State} (busy : s.busy = true) (h : s.round.toNat < 16) (last : s.round = 15) :
    coreStep s = .next (completeBlock (advanceRound (roundKey s ⟨s.round.toNat, h⟩) s)) := by
  rw [coreStep, if_pos busy, roundStep, dif_pos h, if_pos last]

/-- Settles O47: the machine's round key, round function and final permutation are those of the rules on sequences, and
the round step writes what one round of the halves and the completion give. -/
theorem roundStepFollowsItsRule : Obligations.RoundStepFollowsItsRule := by
  unfold Obligations.RoundStepFollowsItsRule
  intro s h busy
  let k := roundKey s ⟨s.round.toNat, h⟩
  refine ⟨seqOf k, seqOf (feistel s.r k), s.l ^^^ feistel s.r k, seqRoundKey_seqOf .., seqFeistel_seqOf s.r k,
    xorSeq_seqOf s.l _, fun before => ?advance, fun last => ?complete⟩
  case advance =>
    have notLast : s.round ≠ 15 := fun last => absurd before (by rw [last]; decide)
    rw [coreStep_of_round_ne_last busy h notLast]
    rfl
  case complete =>
    have sixteen : s.round + 1 = 16 := by rw [last]; rfl
    refine ⟨_, _, applyTable_FP_preoutput (roundOnce k (s.l, s.r)), ?_⟩
    rw [coreStep_of_round_last busy h last, ← sixteen]
    rfl

end Sys2Proof.Machine

/-! SUPPORT and the proofs of the statements about the commands and register writes (45_commands.md). -/

namespace Sys2Proof.Machine

variable {s t : State}

/-! ### An error sets its own bit (60_exceptions.md R250, R251) -/

theorem raise_emptyKey_eq (s : State) : raise .emptyKey s = { s with errEmptyKey := true } := by simp [raise]
theorem raise_busyViolation_eq (s : State) : raise .busyViolation s = { s with errBusy := true } := by simp [raise]
theorem raise_illegalCommand_eq (s : State) : raise .illegalCommand s = { s with errIllegal := true } := by
  simp [raise]

/-! ### The answer of each command, one equation per case (45_commands.md R202, R203, R207) -/

theorem execLdkey_of_busy (busy : s.busy = true) : execLdkey s = .next { s with errBusy := true } := by
  rw [execLdkey, if_pos busy, raise_busyViolation_eq]

theorem execLdkey_of_keylen_zero (idle : s.busy = false) (empty : s.keylen = 0) :
    execLdkey s = .next { s with errEmptyKey := true, keyValid := false } := by
  rw [execLdkey, if_neg (Bool.eq_false_iff.1 idle), if_pos empty, raise_emptyKey_eq, dropKeyValid]

theorem execLdkey_of_keylen_ne_zero (idle : s.busy = false) (key : s.keylen ≠ 0) :
    execLdkey s = .next (loadMasterKey (deriveMasterKey (keyBytes s)) s) := by
  rw [execLdkey, if_neg (Bool.eq_false_iff.1 idle), if_neg key]

theorem startBlock_of_busy (d : Direction) (busy : s.busy = true) :
    startBlock d s = .next { s with errBusy := true } := by
  rw [startBlock, if_pos busy, raise_busyViolation_eq]

theorem illegal_eq (s : State) : illegal s = .next { s with errIllegal := true } := by
  rw [illegal, raise_illegalCommand_eq]

/-! ### Command words (30_encoding.md R81 to R83, 45_commands.md R200) -/

/-- The write of a word that decodes to a command performs that command. -/
theorem exec_wrCmd_of_decode {w : Word} {i : Instr} (h : decodeCommand w = i) (s : State) :
    exec (.wrCmd w) s = exec i s := by
  rw [← h]
  exact issueCommand_eq_exec w s

/-- A word without reserved bits is the OP field under 29 zeros. -/
theorem eq_zero_append_op {w : Word} {op : BitVec 3} (reserved : w.extractLsb' 3 29 = 0)
    (hop : w.extractLsb' 0 3 = op) : w = 0#29 ++ op := by
  rw [← command_fields w, reserved, hop]
  rfl

/-- The condition of R200 for ILLEGAL. -/
theorem issueCommand_of_illegal {w : Word} (h : w.extractLsb' 3 29 ≠ 0 ∨ w.extractLsb' 0 3 = 5 ∨
    w.extractLsb' 0 3 = 6 ∨ w.extractLsb' 0 3 = 7) (s : State) :
    issueCommand w s = .next { s with errIllegal := true } := by
  rw [issueCommand, if_pos h, illegal_eq]

/-- A word above 4 has a reserved bit set or a reserved OP: without reserved bits the word is its OP. -/
theorem illegal_fields_of_gt {w : Word} (h : 4 < w.toNat) : w.extractLsb' 3 29 ≠ 0 ∨ w.extractLsb' 0 3 = 5 ∨
    w.extractLsb' 0 3 = 6 ∨ w.extractLsb' 0 3 = 7 := by
  have reservedOp : ∀ op : BitVec 3, 4 < (0#29 ++ op).toNat → op = 5 ∨ op = 6 ∨ op = 7 := by decide
  by_cases reserved : w.extractLsb' 3 29 = 0
  · exact .inr (reservedOp _ (by rwa [← eq_zero_append_op reserved rfl]))
  · exact .inl reserved

/-! ### The key bytes that count (42_key_schedule.md R140, 45_commands.md R202) -/

/-- Bits from 56 on are cut off. -/
theorem keyContent_append {a : List Byte} (h : 7 ≤ a.length) (b : List Byte) :
    keyContent (a ++ b) = keyContent a := by
  have long : 56 ≤ (unpackBits a).length := by rw [length_unpackBits]; omega
  have longer : 56 ≤ (unpackBits a ++ unpackBits b).length := by rw [List.length_append]; omega
  simp only [keyContent, unpackBits_append, if_pos long, if_pos longer, List.take_append_of_le_length long]

theorem deriveMasterKey_append {a : List Byte} (h : 7 ≤ a.length) (b : List Byte) :
    deriveMasterKey (a ++ b) = deriveMasterKey a := by
  simp only [deriveMasterKey, seqMasterKey, keyContent_append h]

/-- Of any number of key bytes from 7 on, the first seven give the master key. -/
theorem deriveMasterKey_map_range (f : Nat → Byte) {n : Nat} (h : 7 ≤ n) :
    deriveMasterKey ((List.range n).map f) = deriveMasterKey ((List.range 7).map f) := by
  obtain ⟨m, rfl⟩ := Nat.exists_eq_add_of_le h
  rw [List.range_add, List.map_append, deriveMasterKey_append (by simp)]

theorem keyBytes_congr {s' : State} (length : s'.keylen = s.keylen)
    (bytes : ∀ j < min s.keylen.toNat 8, keyByte s' j = keyByte s j) : keyBytes s' = keyBytes s := by
  rw [keyBytes, keyBytes, length]
  exact List.map_congr_left fun j hj => bytes j (List.mem_range.1 hj)

/-- KEYLEN from 7 on gives the master key of KEYLEN = 7. -/
theorem deriveMasterKey_keyBytes_of_le (h : 7 ≤ s.keylen.toNat) :
    deriveMasterKey (keyBytes s) = deriveMasterKey (keyBytes { s with keylen := 7 }) :=
  deriveMasterKey_map_range (keyByte s) (Nat.le_min.2 ⟨h, by decide⟩)

/-! ### LDKEY (45_commands.md R202) -/

/-- The two formats of LDKEY have one meaning. -/
theorem exec_of_ldkey {i : Instr} (h : i = .ldkey ∨ i = .wrCmd 0x00000001) (s : State) : exec i s = execLdkey s := by
  obtain rfl | rfl := h
  · rfl
  · exact exec_wrCmd_of_decode (by decide : decodeCommand 1 = .ldkey) s

theorem execLdkey_masterKey (idle : s.busy = false) (key : s.keylen ≠ 0) (h : execLdkey s = .next t) :
    t.masterKey = deriveMasterKey (keyBytes s) := by
  rw [execLdkey_of_keylen_ne_zero idle key] at h
  cases h
  rfl

/-- Repeating a successful LDKEY changes nothing: it reads no register that it writes. -/
theorem execLdkey_idempotent (idle : s.busy = false) (key : s.keylen ≠ 0) (h : execLdkey s = .next t) :
    execLdkey t = .next t := by
  rw [execLdkey_of_keylen_ne_zero idle key] at h
  cases h
  exact execLdkey_of_keylen_ne_zero (s := loadMasterKey _ s) idle key

/-- Settles O15: one equation per branch of the rule; the corner cases are about the key bytes that a successful LDKEY
gives to `deriveMasterKey`. -/
theorem ldkeyFollowsItsRule : Obligations.LdkeyFollowsItsRule := by
  unfold Obligations.LdkeyFollowsItsRule
  intro i hi s
  simp only [exec_of_ldkey hi]
  refine ⟨execLdkey_of_busy, execLdkey_of_keylen_zero, fun idle key => ⟨?loads, ?idempotent, ?seven, ?ignored⟩⟩
  case loads => exact ⟨_, seqOf_wordOf (length_seqMasterKey (keyBytes s)), execLdkey_of_keylen_ne_zero idle key⟩
  case idempotent => exact fun t => execLdkey_idempotent idle key
  case seven =>
    intro t u seven ht hu
    have key7 : (7 : BitVec 8) ≠ 0 := by decide
    rw [execLdkey_masterKey idle key ht, execLdkey_masterKey (s := { s with keylen := 7 }) idle key7 hu,
      deriveMasterKey_keyBytes_of_le seven]
  case ignored =>
    intro s' t t' idle' length bytes ht ht'
    rw [execLdkey_masterKey idle key ht, execLdkey_masterKey idle' (length ▸ key) ht', keyBytes_congr length bytes]

/-! ### The other commands (45_commands.md R201, R203, R206, R207) -/

/-- Settles O19: a word above 4 meets the condition of ILLEGAL, and the four rows of ILLEGAL have one meaning. -/
theorem illegalWordsSetErrIllegalOnly : Obligations.IllegalWordsSetErrIllegalOnly := by
  unfold Obligations.IllegalWordsSetErrIllegalOnly
  intro s
  refine ⟨fun w hw => ?_, fun _ => illegal_eq s, fun _ => illegal_eq s, fun _ => illegal_eq s, fun _ _ => illegal_eq s⟩
  have written := issueCommand_of_illegal (illegal_fields_of_gt hw) s
  exact ⟨written, (issueCommand_eq_exec w s).symm.trans written⟩

/-- Settles O14: the word 0 decodes to NOP, whose meaning is the same state. -/
theorem nopChangesNothing : Obligations.NopChangesNothing := by
  unfold Obligations.NopChangesNothing
  exact fun s => ⟨rfl, exec_wrCmd_of_decode (by decide : decodeCommand 0 = .nop) s⟩

/-- LDKEY, ENC and DEC while BUSY = 1, in both formats: each issues a command that BUSY refuses. -/
theorem exec_refused_of_busy (busy : s.busy = true) {i : Instr}
    (h : i = .ldkey ∨ i = .enc ∨ i = .dec ∨ i = .wrCmd 1 ∨ i = .wrCmd 2 ∨ i = .wrCmd 3) :
    exec i s = .next { s with errBusy := true } := by
  have command : issued i = .ldkey ∨ issued i = .enc ∨ issued i = .dec := by
    obtain rfl | rfl | rfl | rfl | rfl | rfl := h <;> decide
  rw [← exec_issued]
  obtain h | h | h := command <;> rw [h]
  · exact execLdkey_of_busy busy
  · exact startBlock_of_busy .forward busy
  · exact startBlock_of_busy .reverse busy

/-- Settles O17: the meanings that test BUSY are those of LDKEY, ENC and DEC. -/
theorem busyRefusesLdkeyEncAndDecOnly : Obligations.BusyRefusesLdkeyEncAndDecOnly := by
  unfold Obligations.BusyRefusesLdkeyEncAndDecOnly
  exact fun s busy => ⟨fun _ => exec_refused_of_busy busy, rfl, rfl, fun _ _ => illegal_eq s,
    fun _ => ⟨illegal_eq s, illegal_eq s, illegal_eq s⟩⟩

/-- Settles O18: the two formats of CLRERR have one meaning. -/
theorem clrerrClearsTheErrorBits : Obligations.ClrerrClearsTheErrorBits := by
  unfold Obligations.ClrerrClearsTheErrorBits
  intro i hi s
  obtain rfl | rfl := hi
  · rfl
  · exact exec_wrCmd_of_decode (by decide : decodeCommand 4 = .clrerr) s

/-! ### Write transactions (45_commands.md R200, R208, R209) -/

theorem exec_busWrite (addr : BitVec 8) (w : Word) (s : State) :
    exec (decode (.bus (1#1 ++ addr ++ w))) s = exec (decodeWrite addr w) s :=
  congrArg (exec · s) (decodeBus_write addr w)

/-- An offset without a register: misaligned or reserved (20_memory.md R64, R65). -/
theorem selectRegister_eq_none {addr : BitVec 8} (h : 0x30 ≤ addr.toNat ∨ addr.extractLsb' 0 2 ≠ 0) :
    selectRegister addr = none := by
  rw [selectRegister_none, offsetSelects, Bool.and_eq_false_iff]
  obtain reserved | misaligned := h
  · exact .inr (decide_eq_false (Nat.not_lt.2 reserved))
  · exact .inl (beq_false_of_ne misaligned)

theorem exec_busWrite_of_none {addr : BitVec 8} (h : selectRegister addr = none) (w : Word) (s : State) :
    exec (decode (.bus (1#1 ++ addr ++ w))) s = .next s := by
  rw [exec_busWrite, decodeWrite, h]
  rfl

/-- Settles O20: the rule's case analysis is the decoder's, and offsets 1 to 3 select no register. -/
theorem writeToCmdIssuesItsCommand : Obligations.WriteToCmdIssuesItsCommand := by
  unfold Obligations.WriteToCmdIssuesItsCommand
  intro s w
  have legal {op : BitVec 3} {i : Instr} (reserved : w.extractLsb' 3 29 = 0) (row : decodeCommand (0#29 ++ op) = i)
      (hop : w.extractLsb' 0 3 = op) : exec (.wrCmd w) s = exec i s :=
    exec_wrCmd_of_decode (eq_zero_append_op reserved hop ▸ row) s
  refine ⟨exec_busWrite 0x00 w s, fun h => issueCommand_of_illegal h s, fun reserved => ?legal,
    issueCommand_eq_exec w s, fun addr haddr => exec_busWrite_of_none (selectRegister_eq_none (.inr ?misaligned)) w s⟩
  case legal =>
    exact ⟨legal reserved (by decide), legal reserved (by decide), legal reserved (by decide),
      legal reserved (by decide), legal reserved (by decide)⟩
  case misaligned => obtain rfl | rfl | rfl := haddr <;> decide

/-- The low byte of a word, zero-extended, is the word under the mask 0xFF. -/
theorem setWidth_low_byte (w : Word) : (w.extractLsb' 0 8).setWidth 32 = w &&& 0x000000FF := by
  apply BitVec.eq_of_toNat_eq
  have inWord : w.toNat % 256 < 4294967296 := by omega
  simpa [Nat.mod_eq_of_lt inWord] using (Nat.and_two_pow_sub_one_eq_mod w.toNat 8).symm

/-- Settles O25: the writes are record updates; what KEYLEN then reads as is the low byte of the word. -/
theorem registerWritesStoreAndChangeNothingElse : Obligations.RegisterWritesStoreAndChangeNothingElse := by
  unfold Obligations.RegisterWritesStoreAndChangeNothingElse
  intro s w
  refine ⟨rfl, rfl, rfl, rfl, setKeylen w s, rfl, ?_, rfl⟩
  exact (readOffset_offset .keylen (setKeylen w s)).trans (setWidth_low_byte w)

/-- Settles O27: the six read-only offsets select registers whose write is ignored, the others select no register. -/
theorem ignoredWritesChangeNothing : Obligations.IgnoredWritesChangeNothing := by
  unfold Obligations.IgnoredWritesChangeNothing
  refine fun s addr w => ⟨fun h => ?_, rfl, rfl, rfl, rfl, rfl, rfl, rfl⟩
  obtain rfl | rfl | rfl | rfl | rfl | rfl | noRegister := h
  · exact exec_busWrite 0x04 w s
  · exact exec_busWrite 0x1C w s
  · exact exec_busWrite 0x20 w s
  · exact exec_busWrite 0x24 w s
  · exact exec_busWrite 0x28 w s
  · exact exec_busWrite 0x2C w s
  · exact exec_busWrite_of_none (selectRegister_eq_none noRegister) w s

end Sys2Proof.Machine

/-! SUPPORT and the proofs of the statements about reset and hazards (70_reset_and_hazards.md). -/

namespace Sys2Proof.Machine

variable {s t : State}

/-! ### Accesses while BUSY = 1 (70_reset_and_hazards.md R276) -/

/-- Only a successful LDKEY and an accepted ENC or DEC write what the engine holds, and BUSY refuses these
(45_commands.md R203). -/
theorem Effect.sameEngine_of_busy (busy : s.busy = true) (h : Effect s t) : sameEngine s t := by
  cases h with
  | keyLoaded idle | accepted d idle => exact absurd busy (Bool.eq_false_iff.1 idle)
  | unchanged | raised | keyDropped | cleared | wroteKey0 | wroteKey1 | wroteKeylen | wroteDin0 | wroteDin1
  | responded => simp [sameEngine, outputBlock]

/-- Settles O51: every instruction has one of the effects of `Effect`, and while BUSY = 1 none of them reaches the
engine. -/
theorem accessesWhileBusyLeaveTheEngineAlone : Obligations.AccessesWhileBusyLeaveTheEngineAlone := by
  unfold Obligations.AccessesWhileBusyLeaveTheEngineAlone
  exact fun i s t busy h => (exec_effect h).sameEngine_of_busy busy

end Sys2Proof.Machine

/-! SUPPORT and the proofs of the statements about the encoding and the access a step performs (30_encoding.md,
20_memory.md). -/

namespace Sys2Proof.Machine

/-! ### Transactions (30_encoding.md R80, R84) -/

theorem decode_encodeWrite (addr : BitVec 8) (w : Word) : decode (encodeWrite addr w) = decodeWrite addr w :=
  decodeBus_write addr w

theorem decode_encodeRead (addr : BitVec 8) : decode (encodeRead addr) = decodeRead addr :=
  decodeBus_read addr 0

theorem decodeWrite_of_none {addr : BitVec 8} (h : selectRegister addr = none) (w : Word) :
    decodeWrite addr w = .wrOther addr w := by
  rw [decodeWrite, h]

theorem decodeRead_of_none {addr : BitVec 8} (h : selectRegister addr = none) : decodeRead addr = .rdOther addr := by
  rw [decodeRead, h]

/-- The operand of a well-formed fallback transaction selects no register. -/
theorem selectRegister_of_not_selects {addr : BitVec 8} (h : (!offsetSelects addr) = true) :
    selectRegister addr = none :=
  selectRegister_none.2 (by simpa using h)

theorem encode_decodeWrite (addr : BitVec 8) (w : Word) : encode (decodeWrite addr w) = encodeWrite addr w := by
  cases h : selectRegister addr with
  | none => rw [decodeWrite_of_none h, encode]
  | some reg =>
    obtain rfl := offset_of_selectRegister h
    cases reg <;> rfl

theorem encode_decodeRead (addr : BitVec 8) : encode (decodeRead addr) = encodeRead addr := by
  cases h : selectRegister addr with
  | none => rw [decodeRead_of_none h, encode]
  | some reg =>
    obtain rfl := offset_of_selectRegister h
    cases reg <;> rfl

theorem wellFormed_decodeWrite (addr : BitVec 8) (w : Word) : (decodeWrite addr w).wellFormed = true := by
  cases h : selectRegister addr with
  | none => simp only [decodeWrite_of_none h, Instr.wellFormed, selectRegister_none.1 h, Bool.not_false]
  | some reg =>
    obtain rfl := offset_of_selectRegister h
    cases reg <;> rfl

theorem wellFormed_decodeRead (addr : BitVec 8) : (decodeRead addr).wellFormed = true := by
  cases h : selectRegister addr with
  | none => simp only [decodeRead_of_none h, Instr.wellFormed, selectRegister_none.1 h, Bool.not_false]
  | some reg =>
    obtain rfl := offset_of_selectRegister h
    cases reg <;> rfl

theorem decodeBus_of_we {t : BitVec 41} (h : busWe t = true) :
    decodeBus t = decodeWrite (busAddr t) (busWdata t) := by
  rw [decodeBus, if_pos h]

theorem decodeBus_of_not_we {t : BitVec 41} (h : busWe t = false) : decodeBus t = decodeRead (busAddr t) := by
  rw [decodeBus, if_neg (Bool.eq_false_iff.1 h)]

theorem wellFormed_decodeBus (t : BitVec 41) : (decodeBus t).wellFormed = true := by
  cases h : busWe t with
  | true => rw [decodeBus_of_we h, wellFormed_decodeWrite]
  | false => rw [decodeBus_of_not_we h, wellFormed_decodeRead]

/-! ### Command words (30_encoding.md R81 to R83) -/

theorem decodeCommand_append_op5 (rsvd : BitVec 29) : decodeCommand (rsvd ++ 5#3) = .illegalOp5 rsvd := by
  simp [decodeCommand, op_append, rsvd_append]

theorem decodeCommand_append_op6 (rsvd : BitVec 29) : decodeCommand (rsvd ++ 6#3) = .illegalOp6 rsvd := by
  simp [decodeCommand, op_append, rsvd_append]

theorem decodeCommand_append_op7 (rsvd : BitVec 29) : decodeCommand (rsvd ++ 7#3) = .illegalOp7 rsvd := by
  simp [decodeCommand, op_append, rsvd_append]

/-- The reserved OPs are the ones from 5 on (R82). -/
theorem op_lt_five_iff (op : BitVec 3) : op.toNat < 5 ↔ op ≠ 5 ∧ op ≠ 6 ∧ op ≠ 7 := by
  revert op; decide

theorem decodeCommand_append_rsvd {rsvd : BitVec 29} {op : BitVec 3} (hr : rsvd ≠ 0) (hop : op.toNat < 5) :
    decodeCommand (rsvd ++ op) = .illegalRsvd rsvd op := by
  obtain ⟨op5, op6, op7⟩ := (op_lt_five_iff op).1 hop
  simp only [decodeCommand, op_append, rsvd_append]
  rw [if_neg op5, if_neg op6, if_neg op7, if_pos hr]

/-- A legal OP that is none of 0 to 3 is 4. -/
theorem op_eq_four {op : BitVec 3} : op ≠ 5 ∧ op ≠ 6 ∧ op ≠ 7 ∧ op ≠ 0 ∧ op ≠ 1 ∧ op ≠ 2 ∧ op ≠ 3 → op = 4 := by
  revert op; decide

theorem cmd_of_fields {w : Word} {rsvd : BitVec 29} {op : BitVec 3} (hr : w.extractLsb' 3 29 = rsvd)
    (hop : w.extractLsb' 0 3 = op) : Frame.cmd (rsvd ++ op) = .cmd w := by
  rw [← hr, ← hop, command_fields]

/-- Row by row of the decoder: the encoder puts the two fields of the word together again. -/
theorem encode_decodeCommand (w : Word) : encode (decodeCommand w) = .cmd w := by
  simp only [decodeCommand]
  split_ifs with op5 op6 op7 reserved op0 op1 op2 op3
  · exact cmd_of_fields rfl op5
  · exact cmd_of_fields rfl op6
  · exact cmd_of_fields rfl op7
  · exact cmd_of_fields rfl rfl
  all_goals have zero := not_not.1 reserved
  · exact cmd_of_fields zero op0
  · exact cmd_of_fields zero op1
  · exact cmd_of_fields zero op2
  · exact cmd_of_fields zero op3
  · exact cmd_of_fields zero (op_eq_four ⟨op5, op6, op7, op0, op1, op2, op3⟩)

theorem wellFormed_decodeCommand (w : Word) : (decodeCommand w).wellFormed = true := by
  simp only [decodeCommand]
  split_ifs with op5 op6 op7 reserved
  · rfl
  · rfl
  · rfl
  · have legal := (op_lt_five_iff _).2 ⟨op5, op6, op7⟩
    simp only [Instr.wellFormed, bne_iff_ne.2 reserved, legal, decide_true, Bool.and_self]
  all_goals rfl

/-- Settles O1: the fields that the encoder puts together are the ones that the decoder takes apart; what
well-formedness says of a fallback row keeps the decoder from an earlier one. -/
theorem decodeOfEncodeIsTheInstruction : Obligations.DecodeOfEncodeIsTheInstruction := by
  unfold Obligations.DecodeOfEncodeIsTheInstruction
  intro i wf
  cases i with
  | nop | ldkey | enc | dec | clrerr => rfl
  | illegalOp5 rsvd => exact decodeCommand_append_op5 rsvd
  | illegalOp6 rsvd => exact decodeCommand_append_op6 rsvd
  | illegalOp7 rsvd => exact decodeCommand_append_op7 rsvd
  | illegalRsvd rsvd op =>
    obtain ⟨hr, hop⟩ : rsvd ≠ 0 ∧ op.toNat < 5 := by simpa [Instr.wellFormed] using wf
    exact decodeCommand_append_rsvd hr hop
  | wrOther addr w =>
    exact (decode_encodeWrite addr w).trans (decodeWrite_of_none (selectRegister_of_not_selects wf) w)
  | rdOther addr => exact (decode_encodeRead addr).trans (decodeRead_of_none (selectRegister_of_not_selects wf))
  | wrCmd w => exact decode_encodeWrite RegName.cmd.offset w
  | wrStatus w => exact decode_encodeWrite RegName.status.offset w
  | wrKey0 w => exact decode_encodeWrite RegName.key0.offset w
  | wrKey1 w => exact decode_encodeWrite RegName.key1.offset w
  | wrKeylen w => exact decode_encodeWrite RegName.keylen.offset w
  | wrDin0 w => exact decode_encodeWrite RegName.din0.offset w
  | wrDin1 w => exact decode_encodeWrite RegName.din1.offset w
  | wrDout0 w => exact decode_encodeWrite RegName.dout0.offset w
  | wrDout1 w => exact decode_encodeWrite RegName.dout1.offset w
  | wrMk0 w => exact decode_encodeWrite RegName.mk0.offset w
  | wrMk1 w => exact decode_encodeWrite RegName.mk1.offset w
  | wrConfig w => exact decode_encodeWrite RegName.config.offset w
  | rdCmd => exact decode_encodeRead RegName.cmd.offset
  | rdStatus => exact decode_encodeRead RegName.status.offset
  | rdKey0 => exact decode_encodeRead RegName.key0.offset
  | rdKey1 => exact decode_encodeRead RegName.key1.offset
  | rdKeylen => exact decode_encodeRead RegName.keylen.offset
  | rdDin0 => exact decode_encodeRead RegName.din0.offset
  | rdDin1 => exact decode_encodeRead RegName.din1.offset
  | rdDout0 => exact decode_encodeRead RegName.dout0.offset
  | rdDout1 => exact decode_encodeRead RegName.dout1.offset
  | rdMk0 => exact decode_encodeRead RegName.mk0.offset
  | rdMk1 => exact decode_encodeRead RegName.mk1.offset
  | rdConfig => exact decode_encodeRead RegName.config.offset

theorem decode_encode {i : Instr} (wf : i.wellFormed = true) : decode (encode i) = i :=
  decodeOfEncodeIsTheInstruction i wf

/-- Settles O2: the decoder's rows keep every field of a word but the WDATA of a read. -/
theorem encodeOfDecodeIsTheWord : Obligations.EncodeOfDecodeIsTheWord := by
  unfold Obligations.EncodeOfDecodeIsTheWord
  refine ⟨fun w => ⟨encode_decodeCommand w, wellFormed_decodeCommand w⟩, fun t we => ?write, fun t we => ?read,
    wellFormed_decodeBus⟩
  case write =>
    have fields := bus_fields t
    rw [show busWe t = true from we] at fields
    rw [decodeBus_of_we we, encode_decodeWrite]
    exact congrArg Frame.bus fields
  case read =>
    rw [decodeBus_of_not_we we, encode_decodeRead]
    rfl

/-- Settles O3: the decoder evaluated on the fifteen words. -/
theorem wordsOfTheSpecDecode : Obligations.WordsOfTheSpecDecode := by
  unfold Obligations.WordsOfTheSpecDecode
  decide

/-! ### Byte strings (20_memory.md R60, log 8) -/

theorem frameOfBytes_four {v : Nat} (h : v < 2 ^ 32) :
    frameOfBytes (bytesOfNat 4 v) = .ok (.cmd (BitVec.ofNat 32 v)) := by
  rw [frameOfBytes, if_pos (length_bytesOfNat 4 v), natOfBytes_four v h]

theorem frameOfBytes_six {v : Nat} (h : v < 2 ^ 48) : frameOfBytes (bytesOfNat 6 v) =
    if v < 2 ^ 41 then .ok (.bus (BitVec.ofNat 41 v)) else .error .padding := by
  have notFour : (bytesOfNat 6 v).length ≠ 4 := by rw [length_bytesOfNat]; decide
  rw [frameOfBytes, if_neg notFour, if_pos (length_bytesOfNat 6 v), natOfBytes_six v h]

theorem frameOfBytes_toBytes (f : Frame) : frameOfBytes f.toBytes = .ok f := by
  cases f with
  | cmd w => rw [Frame.toBytes, frameOfBytes_four w.isLt, BitVec.ofNat_toNat, BitVec.setWidth_eq]
  | bus t =>
    have fits : t.toNat < 2 ^ 48 := t.isLt.trans (by decide)
    rw [Frame.toBytes, frameOfBytes_six fits, if_pos t.isLt, BitVec.ofNat_toNat, BitVec.setWidth_eq]

/-- Settles O4: the bytes of a frame are read as that frame. -/
theorem bytesOfAFrameDecode : Obligations.BytesOfAFrameDecode := by
  unfold Obligations.BytesOfAFrameDecode
  intro f
  rw [decodeBytes, frameOfBytes_toBytes]
  rfl

/-! ### The access of a step (log 1, 7, 17) -/

theorem perform_toInput (f : Frame) (s : State) : perform (Frame.toInput f) s = exec (decode f) s := by
  cases f <;> rfl

theorem dropInput_of_cons {s : State} {e : Input} {rest : List Input} (h : s.inputs = e :: rest) :
    dropInput s = { s with inputs := rest } := by
  rw [dropInput, h, List.tail_cons]

/-- Settles O5: the step performs the head input, and a frame's input performs the frame. -/
theorem stepPerformsTheDecodedAccess : Obligations.StepPerformsTheDecodedAccess := by
  unfold Obligations.StepPerformsTheDecodedAccess
  intro s f rest h
  rw [step_of_cons h, perform_toInput, dropInput_of_cons h]

/-- The input of a table word is that of the frame that the decoder reads from the word's bytes. -/
theorem frameOfBytes_of_decodeTableWord {nbits w : Nat} {i : Instr} (h : decodeTableWord nbits w = some i) :
    ∃ f, frameOfBytes (bytesOfNat (frameBytes nbits) w) = .ok f ∧ decode f = i ∧ w < 2 ^ (8 * frameBytes nbits) := by
  unfold decodeTableWord at h
  split_ifs at h with fits
  unfold decodeBytes at h
  cases hf : frameOfBytes (bytesOfNat (frameBytes nbits) w) with
  | error r => rw [hf] at h; cases h
  | ok f => rw [hf] at h; cases h; exact ⟨f, rfl, rfl, fits⟩

theorem toInput_of_frameOfBytes {nbits w : Nat} {f : Frame} (fits : w < 2 ^ (8 * frameBytes nbits))
    (h : frameOfBytes (bytesOfNat (frameBytes nbits) w) = .ok f) : Frame.toInput f = inputOfWord nbits w := by
  by_cases short : nbits ≤ 32
  · have four : frameBytes nbits = 4 := if_pos short
    rw [four, frameOfBytes_four (by rwa [four] at fits)] at h
    cases h
    rw [inputOfWord, if_pos short, Frame.toInput]
  · have notFour : frameBytes nbits ≠ 4 := by rw [frameBytes, if_neg short]; split <;> omega
    have six : frameBytes nbits = 6 := by
      by_contra notSix
      rw [frameOfBytes, length_bytesOfNat, if_neg notFour, if_neg notSix] at h
      cases h
    rw [six, frameOfBytes_six (by rwa [six] at fits)] at h
    split_ifs at h
    cases h
    rw [inputOfWord, if_neg short, Frame.toInput]

/-- Settles O6: the placed input is that of the frame the decoder reads, and performing it is `exec`. -/
theorem placedTableWordIsPerformed : Obligations.PlacedTableWordIsPerformed := by
  unfold Obligations.PlacedTableWordIsPerformed
  intro s nbits w i h
  obtain ⟨f, hf, rfl, fits⟩ := frameOfBytes_of_decodeTableWord h
  rw [State.withFetchWord, ← toInput_of_frameOfBytes fits hf, step_of_cons (pushInputs_inputs [Frame.toInput f] s),
    perform_toInput]
  rfl

/-! ### Misaligned accesses (20_memory.md R64) -/

theorem exec_busRead (addr : BitVec 8) (w : Word) (s : State) :
    exec (decode (.bus (0#1 ++ addr ++ w))) s = exec (decodeRead addr) s :=
  congrArg (exec · s) (decodeBus_read addr w)

theorem exec_busRead_of_none {addr : BitVec 8} (h : selectRegister addr = none) (w : Word) (s : State) :
    exec (decode (.bus (0#1 ++ addr ++ w))) s = .next (respond 0 s) := by
  rw [exec_busRead, decodeRead_of_none h]
  rfl

/-- Settles O28: a misaligned offset selects no register. -/
theorem misalignedAccessesDoNothing : Obligations.MisalignedAccessesDoNothing := by
  unfold Obligations.MisalignedAccessesDoNothing
  intro s addr w misaligned
  have noRegister := selectRegister_eq_none (.inr misaligned)
  exact ⟨exec_busWrite_of_none noRegister w s, exec_busRead_of_none noRegister w s⟩

end Sys2Proof.Machine

/-! SUPPORT and the proofs of the statements about sequences and permutations (40_bit_utilities.md,
41_permutation_engine.md). -/

namespace Sys2Proof.Machine

/-! ### Packing and unpacking (40_bit_utilities.md R100, R101) -/

/-- Eight units at the head are one byte of the packed sequence. -/
theorem packBits_append_byte {u : BitSeq} (hu : u.length = 8) (s : BitSeq) :
    packBits (u ++ s) = (packBits s).map (wordOf 8 u :: ·) := by
  match u, hu with
  | [_, _, _, _, _, _, _, _], _ => rfl

theorem packBits_unpackBits (bytes : List Byte) : packBits (unpackBits bytes) = some bytes := by
  induction bytes with
  | nil => rfl
  | cons b bytes ih =>
    calc packBits (unpackBits (b :: bytes))
        = (packBits (unpackBits bytes)).map (wordOf 8 (seqOf b) :: ·) := packBits_append_byte (length_seqOf b) _
      _ = some (b :: bytes) := by rw [ih, wordOf_seqOf, Option.map_some]

theorem packBits_of_length {s : BitSeq} {n : Nat} (h : s.length = 8 * n) :
    ∃ bytes, packBits s = some bytes ∧ unpackBits bytes = s := by
  induction n generalizing s with
  | zero => exact ⟨[], by rw [List.length_eq_zero_iff.1 h]; rfl, (List.length_eq_zero_iff.1 h).symm⟩
  | succ n ih =>
    have head : (s.take 8).length = 8 := by rw [List.length_take]; omega
    obtain ⟨bytes, packed, unpacked⟩ := ih (s := s.drop 8) (by rw [List.length_drop]; omega)
    refine ⟨wordOf 8 (s.take 8) :: bytes, ?_, ?_⟩
    · rw [← List.take_append_drop 8 s, packBits_append_byte head, packed, Option.map_some,
        List.take_left' head]
    · rw [unpackBits, List.flatMap_cons, seqOf_wordOf head, ← unpackBits, unpacked, List.take_append_drop]

theorem length_of_packBits {s : BitSeq} {bytes : List Byte} (h : packBits s = some bytes) : s.length % 8 = 0 := by
  induction s using packBits.induct generalizing bytes with
  | case1 => rfl
  | case2 b0 b1 b2 b3 b4 b5 b6 b7 rest ih =>
    rw [packBits, Option.map_eq_some_iff] at h
    obtain ⟨tail, packed, -⟩ := h
    have := ih packed
    simp only [List.length_cons]
    omega
  | case3 s notNil notEight => simp [packBits] at h

theorem unpackBits_of_packBits {s : BitSeq} {bytes : List Byte} (h : packBits s = some bytes) :
    unpackBits bytes = s := by
  obtain ⟨n, length⟩ := Nat.dvd_of_mod_eq_zero (length_of_packBits h)
  obtain ⟨bytes', packed, unpacked⟩ := packBits_of_length length
  rw [h] at packed
  cases packed
  exact unpacked

/-- Settles O34: packing takes one byte at a time off the front, as unpacking puts it there. -/
theorem packAndUnpackAreInverse : Obligations.PackAndUnpackAreInverse := by
  unfold Obligations.PackAndUnpackAreInverse
  exact ⟨packBits_unpackBits, fun _ _ => unpackBits_of_packBits⟩

/-! ### FP and IP (41_permutation_engine.md R128(a)) -/

/-- Two permutations of 64 bits whose tables name each other's positions are inverse. -/
theorem permute_permute {outer inner : List Nat} (ho : outer.length = 64) (hi : inner.length = 64)
    (h : ∀ i < 64, outer.getD i 0 - 1 < 64 ∧ inner.getD (outer.getD i 0 - 1) 0 - 1 = i) (x : Block) :
    permute 64 outer (permute 64 inner x) = x := by
  refine eq_of_getMsbD fun i lt => ?_
  obtain ⟨inRange, back⟩ := h i lt
  rw [getMsbD_permute ho _ i lt, getMsbD_permute hi x _ inRange, back]

theorem permute_FP_IP (x : Block) : permute 64 tableFP (permute 64 tableIP x) = x :=
  permute_permute tableFP_shape.1 tableIP_shape.1 (by decide) x

theorem permute_IP_FP (x : Block) : permute 64 tableIP (permute 64 tableFP x) = x :=
  permute_permute tableIP_shape.1 tableFP_shape.1 (by decide) x

/-- A sequence of `n` units is the sequence of a word. -/
theorem exists_seqOf {n : Nat} {s : BitSeq} (h : s.length = n) : ∃ w : BitVec n, s = seqOf w :=
  ⟨wordOf n s, (seqOf_wordOf h).symm⟩

/-- Settles O37: the two tables name each other's positions. -/
theorem initialAndFinalPermutationAreInverse : Obligations.InitialAndFinalPermutationAreInverse := by
  unfold Obligations.InitialAndFinalPermutationAreInverse
  refine ⟨fun s hs => ?_, fun x => ⟨permute_FP_IP x, permute_IP_FP x⟩⟩
  obtain ⟨x, rfl⟩ := exists_seqOf hs
  simp only [applyTable_IP, applyTable_FP, Option.bind_some, permute_FP_IP, permute_IP_FP, and_self]

end Sys2Proof.Machine

/-! SUPPORT and the proofs of the statements about the keys (42_key_schedule.md). -/

namespace Sys2Proof.Machine

/-! ### The master key (42_key_schedule.md R140, R148) -/

theorem seqOf_deriveMasterKey (bytes : List Byte) : seqOf (deriveMasterKey bytes) = seqMasterKey bytes :=
  seqOf_wordOf (length_seqMasterKey bytes)

/-- The parity unit makes the number of ones of its byte odd. -/
theorem count_append_parityUnit (grp : BitSeq) : (grp ++ [parityUnit grp]).count true % 2 = 1 := by
  rw [List.count_append]
  by_cases even : grp.count true % 2 = 0
  · have unit : parityUnit grp = true := decide_eq_true even
    rw [unit, List.count_singleton_self]
    omega
  · have unit : parityUnit grp = false := decide_eq_false even
    rw [unit, List.count_singleton]
    simpa using even

theorem oddParity_deriveMasterKey (bytes : List Byte) : oddParity (deriveMasterKey bytes) := by
  intro g hg
  rw [seqOf_deriveMasterKey, byte_seqMasterKey bytes hg]
  exact count_append_parityUnit _

theorem not_oddParity_zero : ¬oddParity 0 := fun h => absurd (h 0 (by decide)) (by decide)

/-- Settles O39: each byte is a group and its parity unit; zeros have even parity. -/
theorem derivedMasterKeysHaveOddParity : Obligations.DerivedMasterKeysHaveOddParity := by
  unfold Obligations.DerivedMasterKeysHaveOddParity
  intro bytes
  have parity := oddParity_deriveMasterKey bytes
  exact ⟨length_seqMasterKey bytes, parity, fun zero => not_oddParity_zero (zero ▸ parity)⟩

theorem deriveMasterKey_take_seven {key : List Byte} (h : 7 ≤ key.length) :
    deriveMasterKey (key.take 7) = deriveMasterKey key := by
  have seven : 7 ≤ (key.take 7).length := by rw [List.length_take]; omega
  rw [← deriveMasterKey_append seven (key.drop 7), List.take_append_drop]

/-- The content is the first 56 units of the key bytes, read as 0 past their end. -/
theorem deriveMasterKey_congr {a b : List Byte}
    (h : ∀ i < 56, (unpackBits a).getD i false = (unpackBits b).getD i false) :
    deriveMasterKey a = deriveMasterKey b := by
  have content : keyContent a = keyContent b := by
    refine List.ext_getElem (by simp only [length_keyContent]) fun i ha hb => ?_
    have inContent : i < 56 := by rwa [length_keyContent] at ha
    rw [← List.getD_eq_getElem _ false ha, ← List.getD_eq_getElem _ false hb, getD_keyContent a inContent,
      getD_keyContent b inContent, h i inContent]
  simp only [deriveMasterKey, seqMasterKey, content]

theorem unpackBits_replicate_zero (n : Nat) : unpackBits (List.replicate n 0) = zeros (8 * n) := by
  refine List.eq_replicate_iff.2 ⟨by rw [length_unpackBits, List.length_replicate], fun b hb => ?_⟩
  obtain ⟨byte, hbyte, hb⟩ := List.mem_flatMap.1 hb
  rw [List.eq_of_mem_replicate hbyte, seqOf_zero] at hb
  exact List.eq_of_mem_replicate hb

theorem getD_append_zeros (s : BitSeq) (n i : Nat) : (s ++ zeros n).getD i false = s.getD i false := by
  by_cases inside : i < s.length
  · rw [List.getD_append _ _ _ _ inside]
  · have past := Nat.le_of_not_lt inside
    rw [List.getD_append_right _ _ _ _ past, List.getD_eq_default _ _ past, zeros,
      List.getD_eq_getElem?_getD, List.getElem?_getD_replicate_default_eq]

theorem deriveMasterKey_append_zeros (key : List Byte) (n : Nat) :
    deriveMasterKey (key ++ List.replicate n 0) = deriveMasterKey key := by
  refine deriveMasterKey_congr fun i _ => ?_
  rw [unpackBits_append, unpackBits_replicate_zero, getD_append_zeros]

/-- Settles O40: bits from 56 on are cut off, and missing ones read as 0. -/
theorem onlyTheFirstSevenKeyBytesMatter : Obligations.OnlyTheFirstSevenKeyBytesMatter := by
  unfold Obligations.OnlyTheFirstSevenKeyBytesMatter
  refine ⟨fun k k' h h' same => ?_, fun k n _ => deriveMasterKey_append_zeros k n⟩
  rw [← deriveMasterKey_take_seven h, same, deriveMasterKey_take_seven h']

/-! ### The round keys (42_key_schedule.md R142 to R146) -/

/-- Settles O41: each step of the rule on the bits of a key is the machine's on words, and none is refused. -/
theorem roundKeysAreThoseOfTheRule : Obligations.RoundKeysAreThoseOfTheRule := by
  unfold Obligations.RoundKeysAreThoseOfTheRule
  exact seqRoundKey_seqOf

theorem deriveRoundKey_shiftRev (ks : KsMode) (mk : Block) (fwd : ShiftSchedule) (i : Fin 16) :
    deriveRoundKey ks mk (shiftRev fwd) i = deriveRoundKey ks mk fwd ⟨15 - i.val, by omega⟩ := by
  rw [deriveRoundKey, getElem_shiftRev]
  rfl

theorem reverse_finRange_sixteen :
    (List.finRange 16).reverse = (List.finRange 16).map fun i => ⟨15 - i.val, by omega⟩ := by
  decide

theorem roundKeys_reverse (build : Build) (mk : Block) :
    roundKeys build mk .reverse = (roundKeys build mk .forward).reverse := by
  rw [roundKeys, roundKeys, ← List.map_reverse, reverse_finRange_sixteen, List.map_map]
  exact List.map_congr_left fun i _ => deriveRoundKey_shiftRev build.ks mk build.shiftFwd i

/-- Settles O42: round `i` of the reversed schedule has the amount of round `15 - i`. -/
theorem reverseScheduleReversesTheRoundKeys : Obligations.ReverseScheduleReversesTheRoundKeys := by
  unfold Obligations.ReverseScheduleReversesTheRoundKeys
  exact ⟨fun ks mk fwd i => ⟨getElem_shiftRev fwd i, deriveRoundKey_shiftRev ks mk fwd i⟩, roundKeys_reverse, by decide⟩

/-- Two words that agree on every position a table selects have the same image. -/
theorem permute_congr {m n : Nat} {table : List Nat} {x y : BitVec n}
    (h : ∀ p ∈ table, x.getMsbD (p - 1) = y.getMsbD (p - 1)) : permute m table x = permute m table y := by
  rw [permute, permute, List.map_congr_left h]

/-- No PC1 entry is a parity position. -/
theorem tablePC1_skips_parity : ∀ p ∈ tablePC1C ++ tablePC1D, p - 1 < 64 ∧ (p - 1) % 8 ≠ 7 := by decide

theorem deriveRoundKey_fips46_congr {mk mk' : Block} (sched : ShiftSchedule) (i : Fin 16)
    (h : ∀ p < 64, p % 8 ≠ 7 → mk.getMsbD p = mk'.getMsbD p) :
    deriveRoundKey .fips46 mk sched i = deriveRoundKey .fips46 mk' sched i := by
  have agree : ∀ p ∈ tablePC1C ++ tablePC1D, mk.getMsbD (p - 1) = mk'.getMsbD (p - 1) := fun p hp =>
    h (p - 1) (tablePC1_skips_parity p hp).1 (tablePC1_skips_parity p hp).2
  have c : permute 28 tablePC1C mk = permute 28 tablePC1C mk' :=
    permute_congr fun p hp => agree p (List.mem_append_left _ hp)
  have d : permute 28 tablePC1D mk = permute 28 tablePC1D mk' :=
    permute_congr fun p hp => agree p (List.mem_append_right _ hp)
  simp only [deriveRoundKey, roundBuffer, c, d]

/-- The first 24 entries of PC2 select from the C half of the round buffer. -/
theorem tablePC2_first_half : ∀ i < 24, tablePC2.getD i 0 - 1 < 28 := by decide

theorem getMsbD_roundBuffer_doc (mk : Block) (amount : Nat) {p : Nat} (hp : p < 28) :
    (roundBuffer .doc mk amount).getMsbD p = (permute 28 tablePC1C mk).getMsbD p := by
  have inBuffer : ¬28 + 28 ≤ p := by omega
  rw [roundBuffer, BitVec.getMsbD_append, if_neg inBuffer, BitVec.getMsbD_append, if_neg (Nat.not_le.2 hp)]

theorem getMsbD_extractLsb'_high (k : RoundKey) {i : Nat} (hi : i < 24) :
    (k.extractLsb' 24 24).getMsbD i = k.getMsbD i := by
  have top : 48 - (24 + 24 - i) = i := by omega
  simp [BitVec.getMsbD_extractLsb', hi, top]

theorem deriveRoundKey_doc_high (mk : Block) (sched sched' : ShiftSchedule) (i j : Fin 16) :
    (deriveRoundKey .doc mk sched i).extractLsb' 24 24 = (deriveRoundKey .doc mk sched' j).extractLsb' 24 24 := by
  refine eq_of_getMsbD fun p hp => ?_
  have inKey : p < 48 := by omega
  have inC := tablePC2_first_half p hp
  simp only [getMsbD_extractLsb'_high _ hp, deriveRoundKey, getMsbD_permute tablePC2_shape.1 _ p inKey,
    getMsbD_roundBuffer_doc mk _ inC]

/-- Settles O43: in DOC the C half is not rotated and fills the first 24 bits; PC1 selects no parity bit. -/
theorem docFixesHalfAKeyAndFipsIgnoresParity : Obligations.DocFixesHalfAKeyAndFipsIgnoresParity := by
  unfold Obligations.DocFixesHalfAKeyAndFipsIgnoresParity
  exact ⟨deriveRoundKey_doc_high, fun _ _ sched i => deriveRoundKey_fips46_congr sched i⟩

end Sys2Proof.Machine

/-! SUPPORT and the proofs of the statements about the block function and the datapath's contracts (43_feistel.md,
44_block_core.md, 93_implementation_defined.md I5). -/

namespace Sys2Proof.Machine

/-! ### The block function on sequences and on words (43_feistel.md R168, R169, 44_block_core.md R180) -/

/-- Settles O44: an S-box entry fits its four units, and the tables and the XOR agree bit by bit. -/
theorem feistelIsThatOfTheRule : Obligations.FeistelIsThatOfTheRule := by
  unfold Obligations.FeistelIsThatOfTheRule
  exact ⟨seqSbox_seqOf, seqFeistel_seqOf⟩

/-- The loop of R180 over any rounds, on the halves of a block. -/
theorem seqRounds_seqOf (ks : KsMode) (mk : Block) (sched : ShiftSchedule) (rounds : List (Fin 16)) (h : Halves) :
    seqRounds ks (seqOf mk) sched rounds (seqOf h.1, seqOf h.2) =
      some (seqOf (runRounds (rounds.map (deriveRoundKey ks mk sched)) h).1,
        seqOf (runRounds (rounds.map (deriveRoundKey ks mk sched)) h).2) := by
  induction rounds generalizing h with
  | nil => rfl
  | cons i rounds ih =>
    have mixed (x y : Word) : xor32 (seqOf x) (seqOf y) = some (seqOf (x ^^^ y)) := xorSeq_seqOf x y
    simp only [seqRounds, seqRoundKey_seqOf, seqFeistel_seqOf, mixed, Option.bind_eq_bind, Option.bind_some]
    exact ih (roundOnce (deriveRoundKey ks mk sched i) h)

theorem take_seqOf_block (x : Block) : (seqOf x).take 32 = seqOf (firstHalf x) := by
  rw [← seqOf_halves, List.take_left' (length_seqOf _)]

theorem drop_seqOf_block (x : Block) : (seqOf x).drop 32 = seqOf (secondHalf x) := by
  rw [← seqOf_halves, List.drop_left' (length_seqOf _)]

theorem seqProcessBlock_seqOf (build : Build) (b mk : Block) (d : Direction) :
    seqProcessBlock build (seqOf b) (seqOf mk) d = some (seqOf (processBlock build b mk d)) := by
  have rounds := seqRounds_seqOf build.ks mk (scheduleFor build.shiftFwd d) (List.finRange 16) (initialHalves b)
  simp only [initialHalves] at rounds
  simp only [seqProcessBlock, requireLength_seqOf, applyTable_IP, take_seqOf_block, drop_seqOf_block, rounds,
    Option.bind_eq_bind, Option.bind_some]
  rw [← seqOf_append]
  exact applyTable_FP _

/-- Settles O45: every piece of R180 on sequences is the machine's on words. -/
theorem processBlockIsThatOfTheRule : Obligations.ProcessBlockIsThatOfTheRule := by
  unfold Obligations.ProcessBlockIsThatOfTheRule
  exact seqProcessBlock_seqOf

/-! ### Decryption undoes encryption (44_block_core.md R188) -/

/-- A round is undone by the same round on the halves swapped. -/
theorem roundOnce_swap_roundOnce (k : RoundKey) (h : Halves) : roundOnce k (roundOnce k h).swap = h.swap := by
  simp only [roundOnce, Prod.swap, BitVec.xor_assoc, BitVec.xor_self, BitVec.xor_zero]

/-- The rounds in reverse order, on the halves swapped, undo the rounds. -/
theorem runRounds_reverse_swap (ks : List RoundKey) (h : Halves) :
    runRounds ks.reverse (runRounds ks h).swap = h.swap := by
  induction ks generalizing h with
  | nil => rfl
  | cons k ks ih =>
    rw [List.reverse_cons, runRounds_append, runRounds_cons k ks h, ih]
    exact roundOnce_swap_roundOnce k h

/-- The preoutput swaps the halves, and IP undoes FP. -/
theorem initialHalves_finalBlock (h : Halves) : initialHalves (finalBlock h) = h.swap := by
  rw [initialHalves, finalBlock, permute_IP_FP, firstHalf_append, secondHalf_append, Prod.swap]

theorem finalBlock_swap_initialHalves (b : Block) : finalBlock (initialHalves b).swap = b := by
  rw [initialHalves, finalBlock, Prod.swap_prod_mk, append_halves, permute_FP_IP]

theorem processBlock_processBlock {build : Build} {mk : Block} {d d' : Direction}
    (h : roundKeys build mk d' = (roundKeys build mk d).reverse) (b : Block) :
    processBlock build (processBlock build b mk d) mk d' = b := by
  rw [processBlock, processBlock, initialHalves_finalBlock, h, runRounds_reverse_swap,
    finalBlock_swap_initialHalves]

/-- Settles O46: the round keys of one direction are those of the other reversed, and the reversed rounds on the swapped
halves undo the rounds. -/
theorem decryptionInvertsEncryption : Obligations.DecryptionInvertsEncryption := by
  unfold Obligations.DecryptionInvertsEncryption
  intro build b mk
  have forward : roundKeys build mk .forward = (roundKeys build mk .reverse).reverse := by
    rw [roundKeys_reverse, List.reverse_reverse]
  exact ⟨processBlock_processBlock (roundKeys_reverse build mk) b, processBlock_processBlock forward b⟩

/-! ### Words and blocks in bytes (20_memory.md R60) -/

/-- The low `a + b` bits of a word are `a` bits, then `b` bits. -/
theorem extractLsb'_add {m : Nat} (w : BitVec m) (a b : Nat) :
    w.extractLsb' 0 (a + b) = w.extractLsb' b a ++ w.extractLsb' 0 b := by
  apply BitVec.eq_of_getLsbD_eq
  intro i hi
  rw [BitVec.getLsbD_append]
  by_cases low : i < b
  · simp [low, hi]
  · have high : i - b < a := by omega
    have place : b + (i - b) = i := by omega
    simp [low, hi, high, place]

/-- The low bits of a word are the bytes of it unpacked, first most significant. -/
theorem unpackBits_extractLsb' {m : Nat} (w : BitVec m) (n : Nat) :
    unpackBits ((List.range n).map fun k => w.extractLsb' (8 * (n - 1 - k)) 8) = seqOf (w.extractLsb' 0 (8 * n)) := by
  induction n with
  | zero => rfl
  | succ n ih =>
    have shift : ∀ k, n - 1 - k = n + 1 - 1 - (k + 1) := by omega
    rw [Nat.mul_succ, Nat.add_comm (8 * n), extractLsb'_add, seqOf_append, ← ih, List.range_succ_eq_map,
      List.map_cons, List.map_map, unpackBits, List.flatMap_cons, ← unpackBits]
    simp only [Function.comp_def, Nat.succ_eq_add_one, ← shift]
    rfl

theorem unpackBits_bytes_of_word {n : Nat} (w : BitVec (8 * n)) :
    unpackBits ((List.range n).map fun k => w.extractLsb' (8 * (n - 1 - k)) 8) = seqOf w := by
  rw [unpackBits_extractLsb', BitVec.extractLsb'_eq_self]

theorem unpackBits_injective {a b : List Byte} (h : unpackBits a = unpackBits b) : a = b :=
  Option.some.inj (by rw [← packBits_unpackBits a, h, packBits_unpackBits])

/-- Four bytes side by side are the word that unpacks to them. -/
theorem unpackBits_four (b0 b1 b2 b3 : Byte) : unpackBits [b0, b1, b2, b3] = seqOf (b0 ++ b1 ++ b2 ++ b3) := by
  simp only [unpackBits, List.flatMap_cons, List.flatMap_nil, List.append_nil, seqOf_append, List.append_assoc]

/-- Eight bytes side by side are the block that unpacks to them. -/
theorem unpackBits_eight (b0 b1 b2 b3 b4 b5 b6 b7 : Byte) :
    unpackBits [b0, b1, b2, b3, b4, b5, b6, b7] = seqOf (b0 ++ b1 ++ b2 ++ b3 ++ b4 ++ b5 ++ b6 ++ b7) := by
  simp only [unpackBits, List.flatMap_cons, List.flatMap_nil, List.append_nil, seqOf_append, List.append_assoc]

theorem unpackBits_bytesOfBlock (b : Block) : unpackBits (bytesOfBlock b) = seqOf b :=
  unpackBits_bytes_of_word (n := 8) b

theorem unpackBits_keyBytes (s : State) :
    unpackBits ((List.range 8).map (keyByte s)) = seqOf s.key0 ++ seqOf s.key1 := by
  rw [← unpackBits_bytes_of_word (n := 4) s.key0, ← unpackBits_bytes_of_word (n := 4) s.key1, ← unpackBits_append]
  rfl

/-- Settles O30: bytes 0 to 3 are the bytes of KEY0 and bytes 4 to 7 those of KEY1. -/
theorem keyBytesAreTheRegistersUnpacked : Obligations.KeyBytesAreTheRegistersUnpacked := by
  unfold Obligations.KeyBytesAreTheRegistersUnpacked
  intro s
  refine ⟨unpackBits_keyBytes s, ?_⟩
  rw [keyBytes, ← List.map_take, List.take_range, min_assoc, min_self]

/-! ### Texts in blocks (46_host_orchestrator.md R232) -/

/-- Eight bytes are the bytes of a block. -/
theorem exists_bytesOfBlock {bytes : List Byte} (h : bytes.length = 8) : ∃ b, bytes = bytesOfBlock b := by
  obtain ⟨b, hb⟩ := exists_seqOf (n := 64) (s := unpackBits bytes) (by rw [length_unpackBits, h])
  exact ⟨b, unpackBits_injective (hb.trans (unpackBits_bytesOfBlock b).symm)⟩

theorem blocksOf_bytesOfBlock_append (b : Block) (rest : List Byte) :
    blocksOf (bytesOfBlock b ++ rest) = (blocksOf rest).map (b :: ·) := by
  have whole : b.extractLsb' 56 8 ++ b.extractLsb' 48 8 ++ b.extractLsb' 40 8 ++ b.extractLsb' 32 8
      ++ b.extractLsb' 24 8 ++ b.extractLsb' 16 8 ++ b.extractLsb' 8 8 ++ b.extractLsb' 0 8 = b :=
    seqOf_injective ((unpackBits_eight ..).symm.trans (unpackBits_bytesOfBlock b))
  simp only [bytesOfBlock, List.cons_append, List.nil_append, blocksOf, whole]

theorem blocksOf_flatMap_bytesOfBlock (bs : List Block) : blocksOf (bs.flatMap bytesOfBlock) = some bs := by
  induction bs with
  | nil => rfl
  | cons b bs ih => rw [List.flatMap_cons, blocksOf_bytesOfBlock_append, ih, Option.map_some]

theorem exists_flatMap_bytesOfBlock {text : List Byte} {n : Nat} (h : text.length = 8 * n) :
    ∃ bs : List Block, text = bs.flatMap bytesOfBlock := by
  induction n generalizing text with
  | zero => exact ⟨[], List.length_eq_zero_iff.1 h⟩
  | succ n ih =>
    obtain ⟨b, hb⟩ := exists_bytesOfBlock (bytes := text.take 8) (by rw [List.length_take]; omega)
    obtain ⟨bs, hbs⟩ := ih (text := text.drop 8) (by rw [List.length_drop]; omega)
    exact ⟨b :: bs, by rw [List.flatMap_cons, ← hb, ← hbs, List.take_append_drop]⟩

theorem length_flatMap_bytesOfBlock (bs : List Block) : (bs.flatMap bytesOfBlock).length = 8 * bs.length := by
  induction bs with
  | nil => rfl
  | cons b bs ih =>
    have eight : (bytesOfBlock b).length = 8 := rfl
    rw [List.flatMap_cons, List.length_append, ih, eight, List.length_cons]
    omega

theorem length_of_blocksOf {text : List Byte} {bs : List Block} (h : blocksOf text = some bs) :
    text.length % 8 = 0 := by
  induction text using blocksOf.induct generalizing bs with
  | case1 => rfl
  | case2 b0 b1 b2 b3 b4 b5 b6 b7 rest ih =>
    rw [blocksOf, Option.map_eq_some_iff] at h
    obtain ⟨tail, split, -⟩ := h
    have := ih split
    simp only [List.length_cons]
    omega
  | case3 text notNil notEight => simp [blocksOf] at h

/-! ### Contracts (93_implementation_defined.md I5, log 12) -/

/-- A function is refused exactly where its precondition fails if it answers where the precondition holds. -/
theorem refused_iff {α : Type} {o : Option α} {P : Prop} (answers : P → ∃ x, o = some x) (refuses : ¬P → o = none) :
    o = none ↔ ¬P := by
  refine ⟨fun none hP => ?_, refuses⟩
  obtain ⟨x, some⟩ := answers hP
  rw [none] at some
  cases some

theorem packBits_refused (s : BitSeq) : packBits s = none ↔ s.length % 8 ≠ 0 := by
  refine refused_iff (fun h => ?_) fun h => ?_
  · obtain ⟨n, length⟩ := Nat.dvd_of_mod_eq_zero h
    obtain ⟨bytes, packed, -⟩ := packBits_of_length length
    exact ⟨bytes, packed⟩
  · exact Option.eq_none_iff_forall_ne_some.2 fun bytes packed => h (length_of_packBits packed)

theorem numberToBits_refused (n : Nat) : numberToBits n = none ↔ 255 < n :=
  (refused_iff (fun h => ⟨_, if_pos h⟩) fun h => if_neg h).trans Nat.not_le

theorem xorSeq_refused (n : Nat) (a b : BitSeq) : xorSeq n a b = none ↔ ¬(a.length = n ∧ b.length = n) :=
  refused_iff (fun h => ⟨_, if_pos h⟩) fun h => if_neg h

theorem rotateLeftSeq_refused (len : Nat) (s : BitSeq) (n : Nat) :
    rotateLeftSeq len s n = none ↔ ¬(s.length = len ∧ n ≤ len) :=
  refused_iff (fun h => ⟨_, if_pos h⟩) fun h => if_neg h

theorem applyTable_refused (table : List Nat) (s : BitSeq) :
    applyTable table s = none ↔ ∃ p ∈ table, p = 0 ∨ s.length < p := by
  rw [applyTable, refused_iff (fun h => ⟨_, if_pos h⟩) fun h => if_neg h]
  simp [imp_iff_not_or]

theorem seqRoundKey_refused (ks : KsMode) (mk : BitSeq) (sched : ShiftSchedule) (i : Fin 16) :
    seqRoundKey ks mk sched i = none ↔ mk.length ≠ 64 := by
  refine refused_iff (fun h => ?_) fun h => ?_
  · obtain ⟨w, rfl⟩ := exists_seqOf h
    exact ⟨_, seqRoundKey_seqOf ks w sched i⟩
  · unfold seqRoundKey
    rw [requireLength_eq_none h]
    rfl

theorem seqSbox_refused (g : Fin 8) (grp : BitSeq) : seqSbox g grp = none ↔ grp.length ≠ 6 := by
  refine refused_iff (fun h => ?_) fun h => ?_
  · obtain ⟨w, rfl⟩ := exists_seqOf h
    exact ⟨_, seqSbox_seqOf g w⟩
  · unfold seqSbox
    split
    · exact absurd rfl h
    · rfl

theorem seqFeistel_refused (r k : BitSeq) : seqFeistel r k = none ↔ ¬(r.length = 32 ∧ k.length = 48) := by
  refine refused_iff (fun h => ?_) fun h => ?_
  · obtain ⟨x, rfl⟩ := exists_seqOf h.1
    obtain ⟨y, rfl⟩ := exists_seqOf h.2
    exact ⟨_, seqFeistel_seqOf x y⟩
  · by_cases half : r.length = 32
    · obtain ⟨x, rfl⟩ := exists_seqOf half
      have key : xor48 (seqOf (permute 48 tableE x)) k = none :=
        (xorSeq_refused 48 _ k).2 fun both => h ⟨half, both.2⟩
      simp only [seqFeistel, requireLength_seqOf, applyTable_E, key, Option.bind_eq_bind, Option.bind_some,
        Option.bind_none]
    · rw [seqFeistel, requireLength_eq_none half]
      rfl

theorem seqProcessBlock_refused (build : Build) (b mk : BitSeq) (d : Direction) :
    seqProcessBlock build b mk d = none ↔ ¬(b.length = 64 ∧ mk.length = 64) := by
  refine refused_iff (fun h => ?_) fun h => ?_
  · obtain ⟨x, rfl⟩ := exists_seqOf h.1
    obtain ⟨y, rfl⟩ := exists_seqOf h.2
    exact ⟨_, seqProcessBlock_seqOf build x y d⟩
  · by_cases block : b.length = 64
    · rw [seqProcessBlock, requireLength_eq_some block, requireLength_eq_none fun key => h ⟨block, key⟩]
      rfl
    · rw [seqProcessBlock, requireLength_eq_none block]
      rfl

theorem blocksOf_refused (text : List Byte) : blocksOf text = none ↔ text.length % 8 ≠ 0 := by
  refine refused_iff (fun h => ?_) fun h => ?_
  · obtain ⟨n, length⟩ := Nat.dvd_of_mod_eq_zero h
    obtain ⟨bs, rfl⟩ := exists_flatMap_bytesOfBlock length
    exact ⟨bs, blocksOf_flatMap_bytesOfBlock bs⟩
  · exact Option.eq_none_iff_forall_ne_some.2 fun bs split => h (length_of_blocksOf split)

/-- Settles O33: each function answers within its contract, on the sequences of words, and is refused outside it. -/
theorem contractViolationsAreRefused : Obligations.ContractViolationsAreRefused := by
  unfold Obligations.ContractViolationsAreRefused
  exact ⟨packBits_refused, numberToBits_refused, xorSeq_refused 32, xorSeq_refused 48, rotateLeftSeq_refused 64,
    rotateLeftSeq_refused 28, applyTable_refused, seqRoundKey_refused, seqSbox_refused, seqFeistel_refused,
    seqProcessBlock_refused, blocksOf_refused⟩

end Sys2Proof.Machine

/-! SUPPORT and the proofs of the statements about what the steps keep: reset, the invariant, CONFIG, DOUT
(10_state.md, 70_reset_and_hazards.md). -/

namespace Sys2Proof.Machine

variable {s t u c : State}

/-! ### What every instruction and every round step leaves alone -/

theorem Effect.build (h : Effect s t) : t.build = s.build := by cases h <;> rfl

theorem Effect.inputs (h : Effect s t) : t.inputs = s.inputs := by cases h <;> rfl

theorem Effect.outputBlock (h : Effect s t) : outputBlock t = outputBlock s := by cases h <;> rfl

/-- What an operation in flight runs under: MK, KEY_VALID, DIR and the build (44_block_core.md R187). -/
structure SameOperands (s t : State) : Prop where
  masterKey : t.masterKey = s.masterKey
  keyValid : t.keyValid = s.keyValid
  dir : t.dir = s.dir
  build : t.build = s.build

theorem SameOperands.trans (h : SameOperands s t) (h' : SameOperands t u) : SameOperands s u :=
  ⟨h'.masterKey.trans h.masterKey, h'.keyValid.trans h.keyValid, h'.dir.trans h.dir, h'.build.trans h.build⟩

/-- LDKEY is refused while BUSY = 1, so KEY_VALID stays as well (45_commands.md R203). -/
theorem Effect.sameOperands_of_busy (busy : s.busy = true) (h : Effect s t) : SameOperands s t := by
  cases h with
  | keyDropped idle | keyLoaded idle | accepted d idle => exact absurd busy (Bool.eq_false_iff.1 idle)
  | unchanged | raised | cleared | wroteKey0 | wroteKey1 | wroteKeylen | wroteDin0 | wroteDin1 | responded =>
    exact ⟨rfl, rfl, rfl, rfl⟩

theorem roundStep_sameOperands (h : roundStep s = .next t) : SameOperands s t := by
  obtain ⟨-, ⟨-, rfl⟩ | ⟨-, rfl⟩⟩ := roundStep_cases h <;> exact ⟨rfl, rfl, rfl, rfl⟩

theorem roundStep_inputs (h : roundStep s = .next t) : t.inputs = s.inputs := by
  obtain ⟨-, ⟨-, rfl⟩ | ⟨-, rfl⟩⟩ := roundStep_cases h <;> rfl

theorem roundStep_errorFlag (e : ErrorKind) (h : roundStep s = .next t) : errorFlag e t = errorFlag e s := by
  obtain ⟨-, ⟨-, rfl⟩ | ⟨-, rfl⟩⟩ := roundStep_cases h <;> rfl

/-- Below round 15 DOUT keeps its value (44_block_core.md R185). -/
theorem roundStep_outputBlock (h : roundStep s = .next t) (notLast : s.round ≠ 15) :
    outputBlock t = outputBlock s := by
  obtain ⟨-, ⟨-, rfl⟩ | ⟨last, -⟩⟩ := roundStep_cases h
  · rfl
  · exact absurd last notLast

theorem toNat_add_one {r : BitVec 5} (h : r.toNat < 16) : (r + 1).toNat = r.toNat + 1 := by
  rw [BitVec.toNat_add, show (1 : BitVec 5).toNat = 1 from rfl, Nat.mod_eq_of_lt (by omega)]

theorem roundStep_round (h : roundStep s = .next t) : t.round.toNat = s.round.toNat + 1 := by
  obtain ⟨hr, ⟨-, rfl⟩ | ⟨-, rfl⟩⟩ := roundStep_cases h <;> exact toNat_add_one hr

/-- A round of 15 is the last one, by its number (10_state.md R24). -/
theorem round_eq_fifteen_iff (r : BitVec 5) : r = 15 ↔ r.toNat = 15 :=
  ⟨fun h => by rw [h]; rfl, fun h => BitVec.eq_of_toNat_eq (h.trans rfl)⟩

/-! ### A clock cycle is an access, then a round step (70_reset_and_hazards.md R278, R281) -/

theorem outputBlock_inj : outputBlock t = outputBlock s ↔ t.dout0 = s.dout0 ∧ t.dout1 = s.dout1 := by
  refine ⟨fun h => ⟨?_, ?_⟩, fun ⟨h0, h1⟩ => by rw [outputBlock, h0, h1, outputBlock]⟩
  · simpa only [outputBlock, firstHalf_append] using congrArg firstHalf h
  · simpa only [outputBlock, secondHalf_append] using congrArg secondHalf h

theorem sameEngine.busy (h : sameEngine s t) : t.busy = s.busy := h.2.2.2.2.1

theorem sameEngine.round (h : sameEngine s t) : t.round = s.round := h.2.2.1

/-- The round step reads and writes nothing beyond what `sameEngine` compares. -/
theorem roundStep_of_sameEngine (same : sameEngine s u) (h : roundStep s = .next c) :
    roundStep u = .next (mergeCycle u c) := by
  obtain ⟨hl, hr, hround, hdir, hbusy, hdone, hmk, hbuild, hout⟩ := same
  obtain ⟨hout0, hout1⟩ := outputBlock_inj.1 hout
  cases s
  cases u
  dsimp only at hl hr hround hdir hbusy hdone hmk hbuild hout0 hout1
  subst hl hr hround hdir hbusy hdone hmk hbuild hout0 hout1
  obtain ⟨inRange, ⟨notLast, rfl⟩ | ⟨last, rfl⟩⟩ := roundStep_cases h
  · rw [roundStep, dif_pos inRange, if_neg notLast]
    rfl
  · rw [roundStep, dif_pos inRange, if_pos last]
    rfl

/-- Settles O52: the access leaves the engine alone, so the round step of the state after it writes what the cycle
takes from the round step of the state before it. -/
theorem clockCycleIsAccessThenEngineStep : Obligations.ClockCycleIsAccessThenEngineStep := by
  unfold Obligations.ClockCycleIsAccessThenEngineStep
  intro s a access h
  refine ⟨fun busy inRange => ?busy, fun idle => ?idle⟩
  case busy =>
    have same := (cycleAccess_effect h).sameEngine_of_busy busy
    obtain ⟨c, hc⟩ := roundStep_answers inRange
    have stillBusy : a.busy = true := same.busy.trans busy
    simp only [clockCycle, h, hc, if_pos busy, coreStep, if_pos stillBusy, roundStep_of_sameEngine same hc]
  case idle => simp only [clockCycle, h, idle, Bool.false_eq_true, if_false]

/-! ### Reset (70_reset_and_hazards.md R270, R271) -/

/-- Settles O9: the three forms of a reset cycle. -/
theorem resetCycleLeadsToTheResetState : Obligations.ResetCycleLeadsToTheResetState := by
  unfold Obligations.ResetCycleLeadsToTheResetState
  intro s rest access h
  rw [step_of_cons h, dropInput_of_cons h, perform]
  cases access with
  | none => rfl
  | some t =>
    have we : busWe t = t.getLsbD 40 := rfl
    cases write : t.getLsbD 40 <;> simp only [resetCycle, we, write] <;> rfl

/-! ### The invariant (10_state.md R24, 60_exceptions.md R252, 42_key_schedule.md R140) -/

/-- The invariant speaks of five fields. -/
theorem Inv.congr (h : Inv s) (busy : t.busy = s.busy) (done : t.done = s.done) (round : t.round = s.round)
    (keyValid : t.keyValid = s.keyValid) (masterKey : t.masterKey = s.masterKey) : Inv t where
  busyRound := by rw [busy, round]; exact h.busyRound
  doneRound := by rw [done, round]; exact h.doneRound
  notBusyAndDone := by rw [busy, done]; exact h.notBusyAndDone
  idleRound := by rw [busy, done, round]; exact h.idleRound
  busyKey := by rw [busy, keyValid]; exact h.busyKey
  keyParity := by rw [keyValid, masterKey]; exact h.keyParity

theorem inv_resetCore (s : State) : Inv (resetCore s) where
  busyRound := nofun
  doneRound := nofun
  notBusyAndDone := fun h => absurd h.1 Bool.false_ne_true
  idleRound := fun _ _ => rfl
  busyKey := nofun
  keyParity := nofun

/-- Settles O10: no flag is set and ROUND is 0. -/
theorem resetSatisfiesTheInvariant : Obligations.ResetSatisfiesTheInvariant := by
  unfold Obligations.ResetSatisfiesTheInvariant
  exact fun build es vs => inv_resetCore { State.resetFor build with inputs := es, responses := vs }

theorem inv_resetCycle (access : Option (BitVec 41)) (s : State) : Inv (resetCycle access s) := by
  unfold resetCycle
  split
  · split
    · exact inv_resetCore s
    · exact (inv_resetCore s).congr rfl rfl rfl rfl rfl
  · exact inv_resetCore s

theorem Effect.inv (h : Effect s t) (inv : Inv s) : Inv t := by
  cases h with
  | unchanged => exact inv
  | raised | cleared | wroteKey0 | wroteKey1 | wroteKeylen | wroteDin0 | wroteDin1 | responded =>
    exact inv.congr rfl rfl rfl rfl rfl
  | keyDropped idle => exact { inv with
      busyKey := fun busy => absurd busy (Bool.eq_false_iff.1 idle)
      keyParity := nofun }
  | keyLoaded => exact { inv with
      busyKey := fun _ => rfl
      keyParity := fun _ => oddParity_deriveMasterKey (keyBytes s) }
  | accepted d idle key => exact {
      busyRound := fun _ => (by decide : (0 : BitVec 5).toNat < 16)
      doneRound := nofun
      notBusyAndDone := fun both => absurd both.2 Bool.false_ne_true
      idleRound := nofun
      busyKey := fun _ => key
      keyParity := inv.keyParity }

theorem roundStep_inv (inv : Inv s) (busy : s.busy = true) (h : roundStep s = .next t) : Inv t := by
  obtain ⟨inRange, ⟨notLast, rfl⟩ | ⟨last, rfl⟩⟩ := roundStep_cases h
  · have below : s.round.toNat ≠ 15 := fun last => notLast ((round_eq_fifteen_iff _).2 last)
    have notDone : s.done = false := Bool.eq_false_iff.2 fun done => inv.notBusyAndDone ⟨busy, done⟩
    exact {
      busyRound := fun _ => (toNat_add_one inRange).trans_lt (by omega)
      doneRound := fun done => absurd done (Bool.eq_false_iff.1 notDone)
      notBusyAndDone := inv.notBusyAndDone
      idleRound := fun idle => absurd busy (Bool.eq_false_iff.1 idle)
      busyKey := inv.busyKey
      keyParity := inv.keyParity }
  · exact {
      busyRound := nofun
      doneRound := fun _ => by simp only [completeBlock_round, advanceRound_round, last]; rfl
      notBusyAndDone := fun both => absurd both.1 Bool.false_ne_true
      idleRound := nofun
      busyKey := nofun
      keyParity := inv.keyParity }

/-- Settles O11: every way the step can go keeps the invariant; a clock cycle is an access, then a round step. -/
theorem everyStepKeepsTheInvariant : Obligations.EveryStepKeepsTheInvariant := by
  unfold Obligations.EveryStepKeepsTheInvariant
  intro s t inv h
  have dropped : Inv (dropInput s) := inv.congr rfl rfl rfl rfl rfl
  cases step_effect h with
  | reset access => exact inv_resetCycle access _
  | access next hu => exact (exec_effect hu).inv dropped
  | accessAndRound next busy hu hc =>
    have same := (exec_effect hu).sameEngine_of_busy (s := dropInput s) busy
    exact roundStep_inv ((exec_effect hu).inv dropped) (same.busy.trans busy) (roundStep_of_sameEngine same hc)
  | pollAgain => exact inv.congr rfl rfl rfl rfl rfl
  | idle => exact dropped
  | round none noReset busy hc => exact roundStep_inv dropped busy hc

/-- Settles O12: the invariant keeps ROUND in the range where the step answers. -/
theorem noRunStops : Obligations.NoRunStops := by
  unfold Obligations.NoRunStops
  intro s inv n
  induction n generalizing s with
  | zero => exact ⟨s, rfl⟩
  | succ n ih =>
    obtain ⟨u, hu⟩ := step_answers inv.busyRound
    rw [run_succ hu]
    exact ih u (everyStepKeepsTheInvariant s u inv hu)

/-! ### CONFIG (10_state.md R30) -/

theorem resetCycle_build (access : Option (BitVec 41)) (s : State) : (resetCycle access s).build = s.build := by
  unfold resetCycle
  split
  · split <;> rfl
  · rfl

theorem step_build (h : step s = .next t) : t.build = s.build := by
  cases step_effect h with
  | reset access => exact resetCycle_build access _
  | access next hu => exact (exec_effect hu).build
  | accessAndRound next busy hu hc => exact (exec_effect hu).build
  | pollAgain | idle => rfl
  | round none noReset busy hc => exact (roundStep_sameOperands hc).build

/-- Settles O13: CONFIG reads the build's mode, and no step writes the build. -/
theorem configIsHardwired : Obligations.ConfigIsHardwired := by
  unfold Obligations.ConfigIsHardwired
  intro s t h
  have config (x : State) : readOffset 0x2C x = configWord x := readOffset_offset .config x
  have kept := step_build h
  refine ⟨config s, ?_, kept⟩
  rw [config, config, configWord, kept, configWord]

/-! ### DOUT (10_state.md R28, 44_block_core.md R185) -/

/-- A round step that changes DOUT is the sixteenth. -/
theorem roundStep_changes_output (h : roundStep s = .next t) (changed : outputBlock t ≠ outputBlock s) :
    s.round = 15 ∧ t.busy = false ∧ t.done = true ∧ t.round = 16 := by
  obtain ⟨_, ⟨-, rfl⟩ | ⟨last, rfl⟩⟩ := roundStep_cases h
  · exact absurd rfl changed
  · exact ⟨last, rfl, rfl, by simp only [completeBlock_round, advanceRound_round, last]; rfl⟩

/-- Settles O32: no access writes DOUT, and of the round steps only the sixteenth does. -/
theorem outputChangesOnlyAtCompletionOrReset : Obligations.OutputChangesOnlyAtCompletionOrReset := by
  unfold Obligations.OutputChangesOnlyAtCompletionOrReset
  intro s t h changed
  cases step_effect h with
  | reset access head => exact .inl ⟨access, head⟩
  | access next hu => exact absurd (exec_effect hu).outputBlock changed
  | accessAndRound next busy hu hc =>
    have last := roundStep_changes_output (s := dropInput s) hc changed
    exact .inr ⟨busy, last⟩
  | pollAgain | idle => exact absurd rfl changed
  | round none noReset busy hc => exact .inr ⟨busy, roundStep_changes_output (s := dropInput s) hc changed⟩

end Sys2Proof.Machine

/-! SUPPORT and the proofs of the statements about ENC and DEC, the errors and the register window (45_commands.md,
60_exceptions.md, 10_state.md). -/

namespace Sys2Proof.Machine

variable {s t u : State}

/-! ### ENC and DEC (45_commands.md R204, R205) -/

theorem raise_noKey_eq (s : State) : raise .noKey s = { s with errNoKey := true } := by simp [raise]

theorem startBlock_of_no_key (d : Direction) (idle : s.busy = false) (noKey : s.keyValid = false) :
    startBlock d s = .next { s with errNoKey := true } := by
  rw [startBlock, if_neg (Bool.eq_false_iff.1 idle), if_pos noKey, raise_noKey_eq]

theorem startBlock_of_key (d : Direction) (idle : s.busy = false) (key : s.keyValid = true) :
    startBlock d s = .next (accept d s) := by
  have valid : ¬s.keyValid = false := by rw [key]; exact Bool.true_eq_false_eq_False
  rw [startBlock, if_neg (Bool.eq_false_iff.1 idle), if_neg valid]

/-- The two formats of ENC and DEC have one meaning. -/
theorem exec_of_block_command {i : Instr} {d : Direction}
    (h : (i = .enc ∧ d = .forward) ∨ (i = .dec ∧ d = .reverse) ∨ (i = .wrCmd 0x00000002 ∧ d = .forward) ∨
      (i = .wrCmd 0x00000003 ∧ d = .reverse)) (s : State) : exec i s = startBlock d s := by
  obtain ⟨rfl, rfl⟩ | ⟨rfl, rfl⟩ | ⟨rfl, rfl⟩ | ⟨rfl, rfl⟩ := h
  · rfl
  · rfl
  · exact exec_wrCmd_of_decode (by decide : decodeCommand 2 = .enc) s
  · exact exec_wrCmd_of_decode (by decide : decodeCommand 3 = .dec) s

/-- IP of DIN, in the halves that L and R take (44_block_core.md R181). -/
theorem applyTable_IP_din (s : State) : applyTable tableIP (seqOf s.din0 ++ seqOf s.din1) =
    some (seqOf (initialHalves (inputBlock s)).1 ++ seqOf (initialHalves (inputBlock s)).2) := by
  rw [← seqOf_append, initialHalves, seqOf_halves]
  exact applyTable_IP (inputBlock s)

/-- Settles O16: one equation per branch of the rule. -/
theorem encAndDecStartABlockOperation : Obligations.EncAndDecStartABlockOperation := by
  unfold Obligations.EncAndDecStartABlockOperation
  intro i d h s
  simp only [exec_of_block_command h]
  exact ⟨startBlock_of_busy d, startBlock_of_no_key d,
    fun idle key => ⟨_, _, applyTable_IP_din s, startBlock_of_key d idle key⟩⟩

/-! ### What an instruction does to the error bits (60_exceptions.md R250 to R252) -/

/-- The four rows of ILLEGAL (30_encoding.md R82, R83). -/
def isIllegal : Instr → Bool
  | .illegalOp5 _ | .illegalOp6 _ | .illegalOp7 _ | .illegalRsvd _ _ => true
  | _ => false

/-- The cause that R251 names for an error, for a command `i` that leads from `s` to `t`. -/
def ErrorCause (i : Instr) (s t : State) : ErrorKind → Prop
  | .emptyKey => i = .ldkey ∧ s.keylen = 0 ∧ s.busy = false ∧ t.keyValid = false
  | .noKey => (i = .enc ∨ i = .dec) ∧ s.keyValid = false ∧ s.busy = false
  | .busyViolation => (i = .ldkey ∨ i = .enc ∨ i = .dec) ∧ s.busy = true
  | .illegalCommand => isIllegal i = true

/-- What the command `i` does to the error bits: nothing, CLRERR, or one of them is set for its cause. -/
inductive ErrorEffect (i : Instr) (s t : State) : Prop where
  | kept (flags : ∀ e, errorFlag e t = errorFlag e s)
  | cleared (command : i = .clrerr) (flags : ∀ e, errorFlag e t = false)
  | raised (e : ErrorKind) (cause : ErrorCause i s t e)
      (flags : ∀ e', errorFlag e' t = (errorFlag e' s || decide (e = e')))

theorem errorFlag_raise (e e' : ErrorKind) (s : State) :
    errorFlag e' (raise e s) = (errorFlag e' s || decide (e = e')) := by
  cases e <;> cases e' <;> rfl

theorem startBlock_errors {i : Instr} {d : Direction} (hi : i = .enc ∨ i = .dec) (h : startBlock d s = .next t) :
    ErrorEffect i s t := by
  obtain ⟨busy, rfl⟩ | ⟨idle, noKey, rfl⟩ | ⟨-, -, rfl⟩ := startBlock_cases h
  · exact .raised .busyViolation ⟨.inr hi, busy⟩ fun e => errorFlag_raise _ e s
  · exact .raised .noKey ⟨hi, noKey, idle⟩ fun e => errorFlag_raise _ e s
  · exact .kept fun _ => rfl

theorem execLdkey_errors (h : execLdkey s = .next t) : ErrorEffect .ldkey s t := by
  obtain ⟨busy, rfl⟩ | ⟨idle, empty, rfl⟩ | ⟨-, -, rfl⟩ := execLdkey_cases h
  · exact .raised .busyViolation ⟨.inl rfl, busy⟩ fun e => errorFlag_raise _ e s
  · exact .raised .emptyKey ⟨rfl, empty, idle, rfl⟩ fun e => errorFlag_raise _ e s
  · exact .kept fun _ => rfl

theorem exec_errors {i : Instr} (h : exec i s = .next t) : ErrorEffect (issued i) s t := by
  rw [← exec_issued] at h
  have notWrite := issued_ne_wrCmd i
  generalize issued i = command at h notWrite ⊢
  cases command with
  | ldkey => exact execLdkey_errors h
  | enc => exact startBlock_errors (.inl rfl) h
  | dec => exact startBlock_errors (.inr rfl) h
  | clrerr => cases h; exact .cleared rfl fun e => by cases e <;> rfl
  | illegalOp5 | illegalOp6 | illegalOp7 | illegalRsvd =>
    cases h; exact .raised .illegalCommand rfl fun e => errorFlag_raise _ e s
  | wrCmd w => exact absurd rfl (notWrite w)
  | _ => cases h; exact .kept fun _ => rfl

/-- A newly set error bit: one was raised, and it is that one. -/
theorem ErrorEffect.cause_of_set {i : Instr} {e : ErrorKind} (h : ErrorEffect i s t) (clear : errorFlag e s = false)
    (set : errorFlag e t = true) :
    ErrorCause i s t e ∧ ∀ e', errorFlag e' s = false → errorFlag e' t = true → e = e' := by
  cases h with
  | kept flags => rw [flags, clear] at set; cases set
  | cleared command flags => rw [flags] at set; cases set
  | raised raised cause flags =>
    have new : ∀ e', errorFlag e' s = false → errorFlag e' t = true → raised = e' := by
      intro e' clear set
      simpa [flags, clear] using set
    obtain rfl := new e clear set
    exact ⟨cause, new⟩

/-- A set error bit stays set but for CLRERR. -/
theorem ErrorEffect.sticky {i : Instr} {e : ErrorKind} (h : ErrorEffect i s t) (set : errorFlag e s = true) :
    errorFlag e t = true ∨ i = .clrerr := by
  cases h with
  | kept flags => exact .inl ((flags e).trans set)
  | cleared command => exact .inr command
  | raised raised cause flags => exact .inl (by rw [flags, set, Bool.true_or])

/-- Settles O21: the one error that an instruction raises. -/
theorem atMostOneErrorIsRaised : Obligations.AtMostOneErrorIsRaised := by
  unfold Obligations.AtMostOneErrorIsRaised
  exact fun i s t e e' h clear set => ((exec_errors h).cause_of_set clear set).2 e'

/-! ### What a step does to the error bits -/

theorem errorFlag_resetCycle (e : ErrorKind) (access : Option (BitVec 41)) (s : State) :
    errorFlag e (resetCycle access s) = false := by
  unfold resetCycle
  split
  · split <;> cases e <;> rfl
  · cases e <;> rfl

/-- Only a reset cycle and an access touch the error bits; a round step in the same clock cycle leaves them, and
KEY_VALID, to the access. -/
theorem step_errors (h : step s = .next t) :
    (nextIsReset s ∧ ∀ e, errorFlag e t = false) ∨ (∀ e, errorFlag e t = errorFlag e s) ∨
    ∃ i u, nextInstr s = some i ∧ ErrorEffect i (dropInput s) u ∧ (∀ e, errorFlag e t = errorFlag e u) ∧
      t.keyValid = u.keyValid := by
  cases step_effect h with
  | reset access head => exact .inl ⟨⟨access, head⟩, fun e => errorFlag_resetCycle e access _⟩
  | access next hu =>
    exact .inr (.inr ⟨_, t, nextInstr_of_nextAccess next, exec_errors hu, fun _ => rfl, rfl⟩)
  | @accessAndRound i u c next busy hu hc =>
    exact .inr (.inr ⟨_, u, nextInstr_of_nextAccess next, exec_errors hu, fun _ => rfl, rfl⟩)
  | pollAgain | idle => exact .inr (.inl fun _ => rfl)
  | round none noReset busy hc => exact .inr (.inl fun e => roundStep_errorFlag (s := dropInput s) e hc)

/-- Settles O22: of the accesses only CLRERR clears an error bit. -/
theorem errorsStayUntilClrerrOrReset : Obligations.ErrorsStayUntilClrerrOrReset := by
  unfold Obligations.ErrorsStayUntilClrerrOrReset
  intro s t e h set
  obtain ⟨reset, -⟩ | kept | ⟨i, u, next, effect, same, -⟩ := step_errors h
  · exact .inr (.inl reset)
  · exact .inl ((kept e).trans set)
  · obtain stays | rfl := effect.sticky (e := e) set
    · exact .inl ((same e).trans stays)
    · exact .inr (.inr next)

/-! ### The words of ILLEGAL (30_encoding.md R82, R83) -/

theorem decodeCommand_of_encode {i : Instr} {w : Word} (wf : i.wellFormed = true) (h : encode i = .cmd w) :
    i = decodeCommand w := by
  rw [← decode_encode wf, h]
  rfl

/-- The words up to 4 are the five commands (R81). -/
theorem isIllegal_decodeCommand_of_le {w : Word} (h : w.toNat ≤ 4) : isIllegal (decodeCommand w) = false := by
  have word : w = BitVec.ofNat 32 w.toNat := by rw [BitVec.ofNat_toNat, BitVec.setWidth_eq]
  rw [word]
  generalize w.toNat = n at h
  interval_cases n <;> decide

theorem exists_word_of_isIllegal {i : Instr} (wf : i.wellFormed = true) (h : isIllegal i = true) :
    ∃ w : Word, w.toNat > 4 ∧ i = decodeCommand w := by
  have isCommand : ∃ w, encode i = .cmd w := by
    cases i with
    | illegalOp5 | illegalOp6 | illegalOp7 | illegalRsvd => exact ⟨_, rfl⟩
    | _ => cases h
  obtain ⟨w, hw⟩ := isCommand
  obtain rfl := decodeCommand_of_encode wf hw
  refine ⟨w, Nat.lt_of_not_le fun legal => ?_, rfl⟩
  rw [isIllegal_decodeCommand_of_le legal] at h
  cases h

theorem wellFormed_issued {i : Instr} (wf : i.wellFormed = true) : (issued i).wellFormed = true := by
  cases i with
  | wrCmd w => exact wellFormed_decodeCommand w
  | _ => exact wf

theorem wellFormed_inputInstr {e : Input} {i : Instr} (h : inputInstr e = some i) : i.wellFormed = true := by
  cases e with
  | bus t => cases h; exact wellFormed_decodeBus t
  | cmd w => cases h; exact wellFormed_decodeCommand w
  | poll gap => cases h; rfl
  | cycle access =>
    obtain ⟨t, -, rfl⟩ := Option.map_eq_some_iff.1 h
    exact wellFormed_decodeBus t
  | core | reset access => cases h

theorem wellFormed_nextInstr {i : Instr} (h : nextInstr s = some i) : i.wellFormed = true := by
  obtain ⟨j, access, rfl⟩ := Option.map_eq_some_iff.1 h
  obtain ⟨e, -, input⟩ := Option.bind_eq_some_iff.1 access
  exact wellFormed_issued (wellFormed_inputInstr input)

/-- Settles O23: the error that was raised, with its cause; an illegal command decoded from a word is the decoding of
one above 4. -/
theorem errorsAreRaisedByTheirCauses : Obligations.ErrorsAreRaisedByTheirCauses := by
  unfold Obligations.ErrorsAreRaisedByTheirCauses
  intro s t e h clear set
  obtain ⟨-, cleared⟩ | kept | ⟨i, u, next, effect, same, valid⟩ := step_errors h
  · rw [cleared] at set; cases set
  · rw [kept, clear] at set; cases set
  · obtain ⟨cause, -⟩ := effect.cause_of_set (e := e) clear ((same e).symm.trans set)
    refine ⟨i, next, ?_⟩
    cases e with
    | emptyKey =>
      obtain ⟨ldkey, empty, idle, dropped⟩ := cause
      exact ⟨ldkey, empty, idle, valid.trans dropped⟩
    | noKey => exact cause
    | busyViolation => exact cause
    | illegalCommand => exact exists_word_of_isIllegal (wellFormed_nextInstr next) cause

/-! ### STATUS (20_memory.md R66, 45_commands.md R208 to R210) -/

/-- A command is the decoding of its word, and no other instruction changes STATUS. -/
theorem command_or_same_status {i : Instr} (wf : i.wellFormed = true) (h : exec i s = .next t) :
    (∃ w : Word, issued i = decodeCommand w) ∨ statusWord t = statusWord s := by
  cases i with
  | wrCmd w => exact .inl ⟨w, rfl⟩
  | nop | ldkey | enc | dec | clrerr | illegalOp5 | illegalOp6 | illegalOp7 | illegalRsvd =>
    exact .inl ⟨_, decodeCommand_of_encode wf rfl⟩
  | _ => cases h; exact .inr rfl

/-- Settles O24: a register write and a read leave every field of STATUS alone. -/
theorem onlyCommandsChangeStatus : Obligations.OnlyCommandsChangeStatus := by
  unfold Obligations.OnlyCommandsChangeStatus
  exact fun i s t wf h changed => (command_or_same_status wf h).resolve_right changed

/-! ### Read after write (45_commands.md R208, R210) -/

/-- If the write of one register is all that a state has undergone, every other offset reads as before. -/
theorem readOffset_of_ne {reg : RegName} {other : BitVec 8}
    (same : ∀ r, r ≠ reg → registerValue r t = registerValue r s) (ne : other ≠ reg.offset) :
    readOffset other t = readOffset other s := by
  cases h : selectRegister other with
  | none => rw [readOffset_of_none h, readOffset_of_none h]
  | some r =>
    obtain rfl := offset_of_selectRegister h
    rw [readOffset_offset, readOffset_offset, same r fun eq => ne (eq ▸ rfl)]

theorem registerValue_setKey0 {r : RegName} (ne : r ≠ .key0) (w : Word) (s : State) :
    registerValue r (setKey0 w s) = registerValue r s := by
  cases r with
  | key0 => exact absurd rfl ne
  | _ => rfl

theorem registerValue_setKey1 {r : RegName} (ne : r ≠ .key1) (w : Word) (s : State) :
    registerValue r (setKey1 w s) = registerValue r s := by
  cases r with
  | key1 => exact absurd rfl ne
  | _ => rfl

theorem registerValue_setDin0 {r : RegName} (ne : r ≠ .din0) (w : Word) (s : State) :
    registerValue r (setDin0 w s) = registerValue r s := by
  cases r with
  | din0 => exact absurd rfl ne
  | _ => rfl

theorem registerValue_setDin1 {r : RegName} (ne : r ≠ .din1) (w : Word) (s : State) :
    registerValue r (setDin1 w s) = registerValue r s := by
  cases r with
  | din1 => exact absurd rfl ne
  | _ => rfl

/-- Settles O26: each of the four writes stores the word in its register and leaves what every other one reads as. -/
theorem onlyTheWrittenOffsetReadsDifferently : Obligations.OnlyTheWrittenOffsetReadsDifferently := by
  unfold Obligations.OnlyTheWrittenOffsetReadsDifferently
  intro s t addr other w haddr h
  rw [exec_busWrite] at h
  obtain rfl | rfl | rfl | rfl := haddr <;> cases h
  · exact ⟨readOffset_offset .key0 _, readOffset_of_ne (reg := .key0) fun r ne => registerValue_setKey0 ne w s⟩
  · exact ⟨readOffset_offset .key1 _, readOffset_of_ne (reg := .key1) fun r ne => registerValue_setKey1 ne w s⟩
  · exact ⟨readOffset_offset .din0 _, readOffset_of_ne (reg := .din0) fun r ne => registerValue_setDin0 ne w s⟩
  · exact ⟨readOffset_offset .din1 _, readOffset_of_ne (reg := .din1) fun r ne => registerValue_setDin1 ne w s⟩

/-! ### Reads (45_commands.md R210) -/

/-- STATUS bit by bit (10_state.md R24). -/
theorem statusWord_flags (s : State) :
    (statusWord s).getLsbD 0 = s.busy ∧ (statusWord s).getLsbD 1 = s.done ∧ (statusWord s).getLsbD 2 = s.keyValid ∧
      (statusWord s).getLsbD 3 = s.errEmptyKey ∧ (statusWord s).getLsbD 4 = s.errNoKey ∧
      (statusWord s).getLsbD 5 = s.errBusy ∧ (statusWord s).getLsbD 6 = s.errIllegal := by
  simp only [statusWord, BitVec.getLsbD_append]
  simp

theorem statusWord_dir (s : State) : (statusWord s).getLsbD 7 = (s.dir == .reverse) := by
  simp only [statusWord, BitVec.getLsbD_append]
  cases s.dir <;> rfl

theorem statusWord_round (s : State) : (statusWord s).extractLsb' 8 5 = s.round := by
  apply BitVec.eq_of_getLsbD_eq
  intro i hi
  rw [BitVec.getLsbD_extractLsb']
  simp only [statusWord, BitVec.getLsbD_append]
  simp [hi]

theorem statusWord_reserved (s : State) : (statusWord s).extractLsb' 13 19 = 0 := by
  apply BitVec.eq_of_getLsbD_eq
  intro i hi
  rw [BitVec.getLsbD_extractLsb']
  simp only [statusWord, BitVec.getLsbD_append]
  simp

/-- Settles O29: a read returns the value of its register, and STATUS is its fields side by side. -/
theorem readsReturnTheRegisterAndChangeNothingElse : Obligations.ReadsReturnTheRegisterAndChangeNothingElse := by
  unfold Obligations.ReadsReturnTheRegisterAndChangeNothingElse
  intro s
  refine ⟨rfl, rfl, rfl, ?keylen, rfl, rfl, rfl, rfl, ⟨firstHalf s.masterKey, (take_seqOf_block _).symm, rfl⟩,
    ⟨secondHalf s.masterKey, (drop_seqOf_block _).symm, rfl⟩, rfl, ⟨statusWord s, rfl, ?status⟩, fun _ => rfl,
    fun addr w noRegister => exec_busRead_of_none (selectRegister_eq_none noRegister) w s⟩
  case keylen =>
    have whole : s.keylen.setWidth 32 = (0 : BitVec 24) ++ s.keylen :=
      BitVec.setWidth_eq_append (by decide)
    exact congrArg (fun v => Host.Outcome.next (respond v s)) whole
  case status =>
    obtain ⟨busy, done, valid, empty, noKey, busyError, illegal⟩ := statusWord_flags s
    exact ⟨busy, done, valid, empty, noKey, busyError, illegal, statusWord_dir s, statusWord_round s,
      statusWord_reserved s⟩

end Sys2Proof.Machine

/-! SUPPORT and the proofs of the statements about an operation in flight (44_block_core.md R183 to R189,
70_reset_and_hazards.md R280). -/

namespace Sys2Proof.Machine

variable {s t u c : State} {b : Block}

/-! ### The halves and the result (44_block_core.md R180) -/

theorem finalBlock_halvesAfter_sixteen (build : Build) (mk : Block) (d : Direction) (b : Block) :
    finalBlock (halvesAfter build mk d b 16) = processBlock build b mk d := by
  rw [halvesAfter, List.take_of_length_le (length_roundKeys build mk d).le, processBlock]

theorem outputBlock_completeBlock (s : State) : outputBlock (completeBlock s) = finalBlock (s.l, s.r) :=
  append_halves _

/-! ### An operation in flight, under what leaves the engine alone and under a round step -/

theorem InFlight.congr (h : InFlight b s) (same : sameEngine s t) : InFlight b t := by
  obtain ⟨hl, hr, hround, hdir, hbusy, -, hmk, hbuild, -⟩ := same
  exact ⟨hbusy.trans h.busy, hround ▸ h.round, by rw [hl, hr, hround, hdir, hmk, hbuild, h.halves]⟩

theorem Completed.congr (h : Completed b s) (same : sameEngine s t) : Completed b t := by
  obtain ⟨-, -, hround, hdir, hbusy, hdone, hmk, hbuild, hout⟩ := same
  exact ⟨hbusy.trans h.busy, hdone.trans h.done, hround.trans h.round, by rw [hout, hdir, hmk, hbuild, h.output]⟩

/-- The lists at the boundary are not the engine's. -/
theorem sameEngine_of_lists (s : State) (es : List Input) (vs : List Word) :
    sameEngine s { s with inputs := es, responses := vs } :=
  ⟨rfl, rfl, rfl, rfl, rfl, rfl, rfl, rfl, rfl⟩

theorem sameOperands_of_lists (s : State) (es : List Input) (vs : List Word) :
    SameOperands s { s with inputs := es, responses := vs } :=
  ⟨rfl, rfl, rfl, rfl⟩

theorem InFlight.roundOnce_halves (h : InFlight b s) :
    roundOnce (roundKey s ⟨s.round.toNat, h.round⟩) (s.l, s.r) =
      halvesAfter s.build s.masterKey s.dir b (s.round.toNat + 1) := by
  rw [halvesAfter_succ _ _ _ _ _ h.round, h.halves]
  rfl

/-- A round step carries the operation one round further, the sixteenth to its result (44_block_core.md R183, R185). -/
theorem InFlight.carried_by_round (h : InFlight b s) (hc : roundStep s = .next c) :
    (s.round.toNat + 1 < 16 ∧ InFlight b c) ∨ (s.round.toNat + 1 = 16 ∧ Completed b c) := by
  have next := roundStep_round hc
  have halves := h.roundOnce_halves
  obtain ⟨inRange, ⟨notLast, rfl⟩ | ⟨last, rfl⟩⟩ := roundStep_cases hc
  · have below : s.round.toNat + 1 < 16 := by
      have : s.round.toNat ≠ 15 := fun last => notLast ((round_eq_fifteen_iff _).2 last)
      omega
    exact .inl ⟨below, h.busy, next ▸ below, by rw [next]; exact halves⟩
  · have sixteen : s.round.toNat + 1 = 16 := by rw [(round_eq_fifteen_iff _).1 last]
    refine .inr ⟨sixteen, rfl, rfl, BitVec.eq_of_toNat_eq (next.trans sixteen), ?_⟩
    rw [sixteen] at halves
    rw [outputBlock_completeBlock]
    exact (congrArg finalBlock halves).trans (finalBlock_halvesAfter_sixteen ..)

/-! ### An operation in flight under any step but a reset cycle -/

/-- What a step does to an operation in flight: an access leaves it where it is, a read of POLL too and puts turns of
the engine before the next read, and a round step carries it on. -/
inductive Carried (b : Block) (s t : State) : Prop where
  | accessed (flight : InFlight b t) (round : t.round = s.round) (inputs : t.inputs = s.inputs.tail)
  | polled (gap : Nat) (flight : InFlight b t) (round : t.round = s.round)
      (inputs : t.inputs = List.replicate (gap + 1) .core ++ .poll gap :: s.inputs.tail)
  | advanced (flight : InFlight b t) (round : t.round.toNat = s.round.toNat + 1) (inputs : t.inputs = s.inputs.tail)
  | completed (done : Completed b t)

/-- A round step of `u`, which is `s` after its access if there is one. -/
theorem Carried.of_roundStep (flight : InFlight b u) (round : u.round = s.round) (inputs : u.inputs = s.inputs.tail)
    (h : roundStep u = .next t) : Carried b s t := by
  have rest := (roundStep_inputs h).trans inputs
  obtain ⟨-, carried⟩ | ⟨-, done⟩ := flight.carried_by_round h
  · exact .advanced carried (round ▸ roundStep_round h) rest
  · exact .completed done

theorem InFlight.carried_by_step (h : InFlight b s) (noReset : ¬nextIsReset s) (hs : step s = .next t) :
    Carried b s t ∧ SameOperands s t := by
  have flight : InFlight b (dropInput s) := h.congr (sameEngine_of_lists s _ _)
  have dropped : SameOperands s (dropInput s) := sameOperands_of_lists s _ _
  cases step_effect hs with
  | reset access head => exact absurd ⟨access, head⟩ noReset
  | access next hu =>
    have effect := exec_effect hu
    have same := effect.sameEngine_of_busy flight.busy
    have operands := dropped.trans (effect.sameOperands_of_busy flight.busy)
    exact ⟨.accessed (flight.congr same) same.round effect.inputs, operands⟩
  | accessAndRound next busy hu hc =>
    have effect := exec_effect hu
    have same := effect.sameEngine_of_busy flight.busy
    have round := roundStep_of_sameEngine same hc
    have operands := (dropped.trans (effect.sameOperands_of_busy flight.busy)).trans (roundStep_sameOperands round)
    exact ⟨.of_roundStep (flight.congr same) same.round effect.inputs round, operands⟩
  | pollAgain gap head busy =>
    refine ⟨.polled gap (h.congr (sameEngine_of_lists s _ _)) rfl ?_, sameOperands_of_lists s _ _⟩
    simp
  | idle none noReset idle => exact absurd h.busy (Bool.eq_false_iff.1 idle)
  | round none noReset busy hc => exact ⟨.of_roundStep flight rfl rfl hc, dropped.trans (roundStep_sameOperands hc)⟩

/-- Settles O48: an access while BUSY = 1 leaves the engine alone, and a round step carries the operation on. -/
theorem operationInFlightIsCarriedToItsResult : Obligations.OperationInFlightIsCarriedToItsResult := by
  unfold Obligations.OperationInFlightIsCarriedToItsResult
  intro b s t h noReset hs
  obtain ⟨carried, mk, -, dir, build⟩ := h.carried_by_step noReset hs
  refine ⟨?_, mk, dir, build⟩
  cases carried with
  | accessed flight | polled gap flight | advanced flight => exact .inl flight
  | completed done => exact .inr done

/-! ### Turns of the engine -/

/-- The next step is the engine's turn: nothing waits, or a `core` input does (log 5). -/
def IsTurn (s : State) : Prop := s.inputs = [] ∨ ∃ rest, s.inputs = .core :: rest

theorem step_of_isTurn (h : IsTurn s) : step s = coreStep (dropInput s) := by
  obtain none | ⟨rest, core⟩ := h
  · rw [step_of_nil none, dropInput_of_nil none]
  · rw [step_of_cons core, perform]

theorem coreStep_of_idle (idle : s.busy = false) : coreStep s = .next s := by
  rw [coreStep, if_neg (Bool.eq_false_iff.1 idle)]

theorem coreStep_of_busy (busy : s.busy = true) : coreStep s = roundStep s := by
  rw [coreStep, if_pos busy]

/-- Settles O7: the step is the engine's turn on the state without its input. -/
theorem engineMovesExactlyWhenBusy : Obligations.EngineMovesExactlyWhenBusy := by
  unfold Obligations.EngineMovesExactlyWhenBusy
  intro s turn
  rw [step_of_isTurn turn]
  refine ⟨fun idle => coreStep_of_idle (s := dropInput s) idle, fun _ => rfl, fun busy inRange => ?_⟩
  rw [coreStep_of_busy (s := dropInput s) busy]
  obtain ⟨t, ht⟩ := roundStep_answers (s := dropInput s) inRange
  exact ⟨t, ht, roundStep_round (s := dropInput s) ht⟩

/-- A turn of the engine carries an operation in flight one round further. -/
theorem InFlight.turn (h : InFlight b s) (turn : IsTurn s) :
    ∃ t, step s = .next t ∧ t.inputs = s.inputs.tail ∧ SameOperands s t ∧
      ((InFlight b t ∧ t.round.toNat = s.round.toNat + 1 ∧ outputBlock t = outputBlock s) ∨
        (s.round.toNat + 1 = 16 ∧ Completed b t)) := by
  have flight : InFlight b (dropInput s) := h.congr (sameEngine_of_lists s _ _)
  have dropped : SameOperands s (dropInput s) := sameOperands_of_lists s _ _
  obtain ⟨t, ht⟩ := roundStep_answers flight.round
  refine ⟨t, ?_, roundStep_inputs ht, dropped.trans (roundStep_sameOperands ht), ?_⟩
  · rw [step_of_isTurn turn, coreStep_of_busy flight.busy, ht]
  · obtain ⟨below, carried⟩ | ⟨last, done⟩ := flight.carried_by_round ht
    · have notLast : (dropInput s).round ≠ 15 := by
        rw [Ne, round_eq_fifteen_iff]
        omega
      exact .inl ⟨carried, roundStep_round (s := dropInput s) ht, roundStep_outputBlock (s := dropInput s) ht notLast⟩
    · exact .inr ⟨last, done⟩

/-! ### Every schedule without a reset (70_reset_and_hazards.md R280) -/

/-- No reset cycle waits at the boundary. -/
def NoResetWaits (s : State) : Prop := ∀ e ∈ s.inputs, ∀ access, e ≠ .reset access

theorem NoResetWaits.not_next (h : NoResetWaits s) : ¬nextIsReset s :=
  fun ⟨access, head⟩ => h _ (List.mem_of_mem_head? head) access rfl

theorem NoResetWaits.of_tail (h : NoResetWaits s) (inputs : t.inputs = s.inputs.tail) : NoResetWaits t :=
  fun e he => h e (List.mem_of_mem_tail (inputs ▸ he))

theorem NoResetWaits.of_polled (h : NoResetWaits s) {gap : Nat}
    (inputs : t.inputs = List.replicate (gap + 1) .core ++ .poll gap :: s.inputs.tail) : NoResetWaits t := by
  intro e he access
  rw [inputs, List.mem_append, List.mem_cons] at he
  obtain core | rfl | waiting := he
  · rw [List.eq_of_mem_replicate core]; nofun
  · nofun
  · exact h e (List.mem_of_mem_tail waiting) access

/-- After finitely many steps the operation has made one more round, or has completed. -/
def ReachesNextRound (b : Block) (s : State) : Prop :=
  ∃ n u, run n s = .next u ∧
    (Completed b u ∨ (InFlight b u ∧ NoResetWaits u ∧ u.round.toNat = s.round.toNat + 1))

theorem ReachesNextRound.of_step (hs : step s = .next t) (round : t.round = s.round) (h : ReachesNextRound b t) :
    ReachesNextRound b s := by
  obtain ⟨n, u, hu, reached⟩ := h
  exact ⟨n + 1, u, (run_succ hs).trans hu, by rwa [← round]⟩

theorem reachesNextRound_of_turn (h : InFlight b s) (noReset : NoResetWaits s) (turn : IsTurn s) :
    ReachesNextRound b s := by
  obtain ⟨t, ht, inputs, -, ⟨flight, round, -⟩ | ⟨-, done⟩⟩ := h.turn turn
  · exact ⟨1, t, run_succ ht, .inr ⟨flight, noReset.of_tail inputs, round⟩⟩
  · exact ⟨1, t, run_succ ht, .inl done⟩

/-- Only finitely many accesses come before a turn of the engine; POLL itself puts one next. -/
theorem reachesNextRound (h : InFlight b s) (noReset : NoResetWaits s) : ReachesNextRound b s := by
  generalize hes : s.inputs = es
  induction es generalizing s with
  | nil => exact reachesNextRound_of_turn h noReset (.inl hes)
  | cons e es ih =>
    obtain ⟨t, ht⟩ := step_answers fun _ => h.round
    cases (h.carried_by_step noReset.not_next ht).1 with
    | accessed flight round inputs =>
      exact .of_step ht round (ih flight (noReset.of_tail inputs) (by rw [inputs, hes, List.tail_cons]))
    | polled gap flight round inputs =>
      exact .of_step ht round (reachesNextRound_of_turn flight (noReset.of_polled inputs) (.inr ⟨_, inputs⟩))
    | advanced flight round inputs => exact ⟨1, t, run_succ ht, .inr ⟨flight, noReset.of_tail inputs, round⟩⟩
    | completed done => exact ⟨1, t, run_succ ht, .inl done⟩

/-- Settles O50: by induction on the rounds that are left. -/
theorem everyOperationCompletesUnderAnySchedule : Obligations.EveryOperationCompletesUnderAnySchedule := by
  unfold Obligations.EveryOperationCompletesUnderAnySchedule
  intro b s h noReset
  obtain ⟨left, hleft⟩ : ∃ left, 16 = s.round.toNat + left := Nat.exists_eq_add_of_le h.round.le
  induction left generalizing s with
  | zero => exact absurd h.round (by omega)
  | succ left ih =>
    obtain ⟨n, u, hu, done | ⟨flight, noReset', round⟩⟩ := reachesNextRound h noReset
    · exact ⟨n, u, hu, done⟩
    · obtain ⟨m, v, hv, done⟩ := ih u flight noReset' (by omega)
      exact ⟨n + m, v, (run_add hu).trans hv, done⟩

/-! ### Any number of turns -/

/-- The next `k` steps are turns of the engine, and then `rest` waits. -/
def TurnsThen (k : Nat) (rest : List Input) (s : State) : Prop :=
  s.inputs = List.replicate k .core ++ rest ∨ (s.inputs = [] ∧ rest = [])

theorem TurnsThen.inputs_eq {rest : List Input} (h : TurnsThen 0 rest s) : s.inputs = rest := by
  obtain eq | ⟨nil, rfl⟩ := h
  · exact eq
  · exact nil

theorem TurnsThen.isTurn {k : Nat} {rest : List Input} (h : TurnsThen (k + 1) rest s) : IsTurn s := by
  obtain eq | ⟨nil, -⟩ := h
  · exact .inr ⟨_, eq⟩
  · exact .inl nil

theorem TurnsThen.tail {k : Nat} {rest : List Input} (h : TurnsThen (k + 1) rest s)
    (inputs : t.inputs = s.inputs.tail) : TurnsThen k rest t := by
  obtain eq | ⟨nil, rfl⟩ := h
  · exact .inl (inputs.trans (congrArg List.tail eq))
  · exact .inr ⟨inputs.trans (congrArg List.tail nil), rfl⟩

/-- Without an operation in flight the turns pass and change nothing (44_block_core.md R186). -/
theorem run_turns_idle {k : Nat} {rest : List Input} (idle : s.busy = false) (turns : TurnsThen k rest s) :
    run k s = .next { s with inputs := rest } := by
  induction k generalizing s with
  | zero => rw [← turns.inputs_eq]; rfl
  | succ k ih =>
    have passed : step s = .next (dropInput s) := by
      rw [step_of_isTurn turns.isTurn, coreStep_of_idle (s := dropInput s) idle]
    rw [run_succ passed]
    exact ih (s := dropInput s) idle (turns.tail rfl)

/-- Fewer turns than are left carry the operation on by as many rounds. -/
theorem InFlight.run_turns {k : Nat} {rest : List Input} (h : InFlight b s) (turns : TurnsThen k rest s)
    (left : s.round.toNat + k < 16) :
    ∃ u, run k s = .next u ∧ InFlight b u ∧ u.round.toNat = s.round.toNat + k ∧ u.inputs = rest ∧
      SameOperands s u ∧ outputBlock u = outputBlock s := by
  induction k generalizing s with
  | zero => exact ⟨s, rfl, h, rfl, turns.inputs_eq, ⟨rfl, rfl, rfl, rfl⟩, rfl⟩
  | succ k ih =>
    obtain ⟨t, ht, inputs, operands, ⟨flight, round, output⟩ | ⟨last, -⟩⟩ := h.turn turns.isTurn
    · obtain ⟨u, hu, flight', round', rest', operands', output'⟩ := ih flight (turns.tail inputs) (by omega)
      exact ⟨u, (run_succ ht).trans hu, flight', by omega, rest', operands.trans operands', output'.trans output⟩
    · omega

/-- At least as many turns as are left carry it to its result. -/
theorem InFlight.run_turns_completes {k : Nat} {rest : List Input} (h : InFlight b s) (turns : TurnsThen k rest s)
    (enough : 16 ≤ s.round.toNat + k) :
    ∃ u, run k s = .next u ∧ Completed b u ∧ u.inputs = rest ∧ SameOperands s u := by
  induction k generalizing s with
  | zero => exact absurd h.round (by omega)
  | succ k ih =>
    obtain ⟨t, ht, inputs, operands, ⟨flight, round, -⟩ | ⟨-, done⟩⟩ := h.turn turns.isTurn
    · obtain ⟨u, hu, done, rest', operands'⟩ := ih flight (turns.tail inputs) (by omega)
      exact ⟨u, (run_succ ht).trans hu, done, rest', operands.trans operands'⟩
    · refine ⟨_, (run_succ ht).trans (run_turns_idle done.busy (turns.tail inputs)), ?_, rfl, ?_⟩
      · exact done.congr (sameEngine_of_lists t rest t.responses)
      · exact operands.trans (sameOperands_of_lists t rest t.responses)

/-! ### An accepted operation (70_reset_and_hazards.md R280, 44_block_core.md R187, R189) -/

theorem inFlight_accept (d : Direction) (s : State) : InFlight (inputBlock s) (accept d s) :=
  ⟨rfl, (by decide : (0 : BitVec 5).toNat < 16), rfl⟩

/-- Settles O49: acceptance puts the operation in flight with no round done, and with nothing waiting every step is a
turn. -/
theorem acceptedOperationTakesSixteenEngineSteps : Obligations.AcceptedOperationTakesSixteenEngineSteps := by
  unfold Obligations.AcceptedOperationTakesSixteenEngineSteps
  intro s i d hi idle key none
  have command : exec i s = startBlock d s := exec_of_block_command (hi.imp_right .inl) s
  have flight := inFlight_accept d s
  have turns (k : Nat) : TurnsThen k [] (accept d s) := .inr ⟨none, rfl⟩
  refine ⟨accept d s, command.trans (startBlock_of_key d idle key), flight, rfl, fun k hk => ?before, ?after⟩
  case before =>
    obtain ⟨u, hu, flight', round, -, -, output⟩ := flight.run_turns (turns k) (by simpa using hk)
    exact ⟨u, hu, flight'.busy, by simpa using round, output⟩
  case after =>
    obtain ⟨u, hu, done, -, mk, -, dir, build⟩ := flight.run_turns_completes (turns 16) (by simp)
    exact ⟨u, hu, done, dir, mk, build⟩

/-- Settles O53: both results are `processBlock` of the same block, key, direction and build. -/
theorem resultDependsOnBlockAndKeyOnly : Obligations.ResultDependsOnBlockAndKeyOnly := by
  unfold Obligations.ResultDependsOnBlockAndKeyOnly
  intro s s' i hi build mk din0 din1 idle idle' key key' none none'
  obtain ⟨d, hd⟩ : ∃ d : Direction, (i = .enc ∧ d = .forward) ∨ (i = .dec ∧ d = .reverse) := by
    obtain rfl | rfl := hi
    · exact ⟨_, .inl ⟨rfl, rfl⟩⟩
    · exact ⟨_, .inr ⟨rfl, rfl⟩⟩
  obtain ⟨t, ht, -, -, -, u, hu, done, dir, mkKept, buildKept⟩ :=
    acceptedOperationTakesSixteenEngineSteps s i d hd idle key none
  obtain ⟨t', ht', -, -, -, u', hu', done', dir', mkKept', buildKept'⟩ :=
    acceptedOperationTakesSixteenEngineSteps s' i d hd idle' key' none'
  have block : inputBlock s = inputBlock s' := by rw [inputBlock, din0, din1, inputBlock]
  refine ⟨t, t', u, u', ht, ht', hu, hu', done.done, done'.done, ?_⟩
  rw [done.output, done'.output, buildKept, buildKept', mkKept, mkKept', dir, dir', block, build, mk]

/-! ### POLL (30_encoding.md R89) -/

theorem step_poll_of_idle {gap : Nat} {rest : List Input} (h : s.inputs = .poll gap :: rest) (idle : s.busy = false) :
    step s = .next (respond (statusWord s) { s with inputs := rest }) := by
  have shown : ¬(statusWord { s with inputs := rest }).getLsbD 0 = true := by
    rw [statusWord_busy]
    exact Bool.eq_false_iff.1 idle
  rw [step_of_cons h, dropInput_of_cons h, perform, pollOnce, if_neg shown]
  rfl

theorem step_poll_of_busy {gap : Nat} {rest : List Input} (h : s.inputs = .poll gap :: rest) (busy : s.busy = true) :
    ∃ t, step s = .next t ∧ TurnsThen (gap + 1) (.poll gap :: rest) t ∧ sameEngine s t ∧ SameOperands s t := by
  have shown : (statusWord (dropInput s)).getLsbD 0 = true := (statusWord_busy _).trans busy
  refine ⟨_, ?_, .inl ?_, sameEngine_of_lists s (List.replicate (gap + 1) .core ++ .poll gap :: rest)
    (statusWord s :: s.responses), sameOperands_of_lists s _ _⟩
  · rw [step_of_cons h, perform, pollOnce, if_pos shown, dropInput_of_cons h, pushInputs, List.append_assoc]
    rfl
  · rfl

/-- POLL ends with the operation completed, and with a bound on its steps: each of its loops but the last makes
`gap + 1` rounds. -/
theorem InFlight.run_poll {gap : Nat} {rest : List Input} (h : InFlight b s) (poll : s.inputs = .poll gap :: rest) :
    ∃ n u vs, n + 2 * s.round.toNat ≤ 33 + gap ∧ run n s = .next u ∧ u.inputs = rest ∧ Completed b u ∧
      SameOperands s u ∧ u.responses = statusWord u :: vs := by
  obtain ⟨left, hleft⟩ : ∃ left, 16 = s.round.toNat + left := Nat.exists_eq_add_of_le h.round.le
  induction left using Nat.strong_induction_on generalizing s with
  | _ left ih =>
    obtain ⟨t, ht, turns, same, operands⟩ := step_poll_of_busy poll h.busy
    have flight := h.congr same
    have round : t.round.toNat = s.round.toNat := congrArg BitVec.toNat same.round
    by_cases last : 16 ≤ t.round.toNat + (gap + 1)
    · obtain ⟨u, hu, done, waiting, operands'⟩ := flight.run_turns_completes turns last
      have read := step_poll_of_idle waiting done.busy
      have inRange := h.round
      refine ⟨1 + (gap + 1) + 1, respond (statusWord u) { u with inputs := rest }, u.responses, by omega, ?_, rfl, ?_,
        ?_, rfl⟩
      · rw [Nat.add_assoc, run_add (run_succ ht : run 1 s = .next t), run_add hu, run_succ read]
        rfl
      · exact done.congr (sameEngine_of_lists u rest _)
      · exact (operands.trans operands').trans (sameOperands_of_lists u rest _)
    · obtain ⟨u, hu, flight', round', waiting, operands', -⟩ := flight.run_turns turns (by omega)
      have inRange := flight'.round
      obtain ⟨n, v, vs, bound, hv, waiting', done, operands'', read⟩ :=
        ih (16 - u.round.toNat) (by omega) flight' waiting (by omega)
      refine ⟨1 + (gap + 1 + n), v, vs, by omega, ?_, waiting', done, (operands.trans operands').trans operands'', read⟩
      rw [run_add (run_succ ht : run 1 s = .next t), run_add hu, hv]

/-- Settles O54: the last read shows STATUS of the completed operation. -/
theorem pollEndsWithTheCompletedOperation : Obligations.PollEndsWithTheCompletedOperation := by
  unfold Obligations.PollEndsWithTheCompletedOperation
  intro b s gap rest h poll
  obtain ⟨n, u, vs, -, hu, waiting, done, -, read⟩ := h.run_poll poll
  exact ⟨n, u, vs, hu, waiting, done, read, (statusWord_busy u).trans done.busy⟩

end Sys2Proof.Machine

/-! SUPPORT and the proofs of the statements about the host's side (46_host_orchestrator.md, 30_encoding.md R88,
R89). -/

namespace Sys2Proof.Machine

variable {s t u : State} {rest : List Input}

/-! ### Host lines (30_encoding.md R88) -/

theorem step_hostLine {i : Instr} (h : s.inputs = hostLine i :: rest) (wf : i.wellFormed = true) :
    step s = exec i { s with inputs := rest } := by
  rw [stepPerformsTheDecodedAccess s (encode i) rest h, decode_encode wf]

theorem run_hostLine {n : Nat} (i : Instr) (h : s.inputs = hostLine i :: rest) (wf : i.wellFormed = true)
    (hu : exec i { s with inputs := rest } = .next u) : run (n + 1) s = run n u :=
  run_succ ((step_hostLine h wf).trans hu)

theorem run_setKeyLines {k0 k1 len : Word} (h : s.inputs = setKeyLines k0 k1 len ++ rest) :
    run 3 s = .next { s with key0 := k0, key1 := k1, keylen := len.extractLsb' 0 8, inputs := rest } := by
  rw [run_hostLine (.wrKey0 k0) h rfl rfl, run_hostLine (.wrKey1 k1) rfl rfl rfl,
    run_hostLine (.wrKeylen len) rfl rfl rfl]
  rfl

theorem run_setBlkLines {d0 d1 : Word} (h : s.inputs = setBlkLines d0 d1 ++ rest) :
    run 2 s = .next { s with din0 := d0, din1 := d1, inputs := rest } := by
  rw [run_hostLine (.wrDin0 d0) h rfl rfl, run_hostLine (.wrDin1 d1) rfl rfl rfl]
  rfl

theorem run_getBlkLines (h : s.inputs = getBlkLines ++ rest) :
    run 2 s = .next { s with responses := s.dout1 :: s.dout0 :: s.responses, inputs := rest } := by
  rw [run_hostLine .rdDout0 h rfl rfl, run_hostLine .rdDout1 rfl rfl rfl]
  rfl

theorem step_ldkeyLine (h : s.inputs = ldkeyLine :: rest) : step s = execLdkey { s with inputs := rest } := by
  rw [step_hostLine h rfl, exec_of_ldkey (.inr rfl)]

theorem step_cipherLine {d : Direction} (h : s.inputs = cipherLine d :: rest) :
    step s = startBlock d { s with inputs := rest } := by
  cases d with
  | forward => rw [step_hostLine h rfl, exec_of_block_command (.inr (.inr (.inl ⟨rfl, rfl⟩)))]
  | reverse => rw [step_hostLine h rfl, exec_of_block_command (.inr (.inr (.inr ⟨rfl, rfl⟩)))]

/-- Once nothing waits and no operation is in flight, more fuel changes nothing. -/
theorem run_of_idle {n m : Nat} (h : run n s = .next t) (hm : n ≤ m) (none : t.inputs = []) (idle : t.busy = false) :
    run m s = .next t := by
  obtain ⟨k, rfl⟩ := Nat.exists_eq_add_of_le hm
  rw [run_add h, run_idle k none idle]

theorem drive_eq_some {fuel : Nat} {lines : List Input} (h : run fuel { s with inputs := lines } = .next t) :
    drive fuel lines s = some t := by
  rw [drive, h]

/-! ### pad (46_host_orchestrator.md R231) -/

theorem length_pad (text : List Byte) : (pad text).length = text.length + (8 - text.length % 8) % 8 := by
  rw [pad, List.length_append, List.length_replicate]

theorem length_pad_mod (text : List Byte) : (pad text).length % 8 = 0 := by
  rw [length_pad]
  omega

theorem pad_of_aligned {text : List Byte} (h : text.length % 8 = 0) : pad text = text := by
  rw [pad, h]
  exact List.append_nil text

/-- Settles O56: the filler is what is missing to the next multiple of 8. -/
theorem padReachesTheNextMultipleOfEight : Obligations.PadReachesTheNextMultipleOfEight := by
  unfold Obligations.PadReachesTheNextMultipleOfEight
  refine fun text => ⟨length_pad_mod text, ?_, List.take_left, fun b hb => ?_, pad_of_aligned⟩
  · rw [length_pad]
    omega
  · rw [pad, List.drop_left] at hb
    exact List.eq_of_mem_replicate hb

/-! ### construct (46_host_orchestrator.md R230) -/

theorem unpackBits_wordOfBytesAt (key : List Byte) :
    seqOf (wordOfBytesAt key 0) ++ seqOf (wordOfBytesAt key 4) =
      unpackBits ((List.range 8).map fun j => key.getD j 0) := by
  rw [wordOfBytesAt, ← unpackBits_four, wordOfBytesAt, ← unpackBits_four, ← unpackBits_append]
  rfl

theorem take_map_getD (key : List Byte) :
    ((List.range 8).map fun j => key.getD j 0).take (min key.length 8) = key.take 8 := by
  refine List.ext_getElem (by simp [Nat.min_comm]) fun j _ inTake => ?_
  have inKey : j < key.length := (List.length_take ▸ inTake).trans_le (Nat.min_le_right _ _)
  rw [List.getElem_take, List.getElem_map, List.getElem_range, List.getElem_take, List.getD_eq_getElem _ _ inKey]

/-- SETKEY with the words of a key of any length leaves the key bytes of that key for LDKEY, at most eight of them. -/
theorem keyBytes_of_setKey {key : List Byte} (k0 : s.key0 = wordOfBytesAt key 0) (k1 : s.key1 = wordOfBytesAt key 4)
    (len : s.keylen.toNat = min key.length 255) : keyBytes s = key.take 8 := by
  obtain ⟨unpacked, counted⟩ := keyBytesAreTheRegistersUnpacked s
  have bytes : (List.range 8).map (keyByte s) = (List.range 8).map fun j => key.getD j 0 :=
    unpackBits_injective (by rw [unpacked, k0, k1, unpackBits_wordOfBytesAt])
  have count : min (min key.length 255) 8 = min key.length 8 := by omega
  rw [counted, bytes, len, count, take_map_getD]

theorem deriveMasterKey_take_eight (key : List Byte) : deriveMasterKey (key.take 8) = deriveMasterKey key := by
  by_cases long : 8 ≤ key.length
  · have seven : 7 ≤ (key.take 8).length := by rw [List.length_take]; omega
    rw [← deriveMasterKey_append seven (key.drop 8), List.take_append_drop]
  · rw [List.take_of_length_le (by omega)]

theorem toNat_low_byte {n : Nat} (h : n ≤ 255) : ((BitVec.ofNat 32 n).extractLsb' 0 8).toNat = n := by
  rw [BitVec.extractLsb'_toNat, BitVec.toNat_ofNat, Nat.shiftRight_zero]
  omega

/-- The four accesses of `construct` load the master key of the host's key into an idle core. -/
theorem drive_constructLines {key : List Byte} (hk : key ≠ []) (idle : s.busy = false) :
    ∃ t, drive 4 (constructLines key) s = some t ∧ t.busy = false ∧ t.keyValid = true ∧
      t.masterKey = deriveMasterKey key ∧ t.build = s.build ∧ outputBlock t = outputBlock s := by
  have positive := List.length_pos_iff.2 hk
  have len := toNat_low_byte (Nat.min_le_right key.length 255)
  let u : State := { s with
    key0 := wordOfBytesAt key 0, key1 := wordOfBytesAt key 4
    keylen := (BitVec.ofNat 32 (min key.length 255)).extractLsb' 0 8, inputs := [ldkeyLine] }
  have set : run 3 { s with inputs := constructLines key } = .next u := run_setKeyLines rfl
  have loads : u.keylen ≠ 0 := fun zero => by
    have none : 0 = min key.length 255 := (congrArg BitVec.toNat zero).symm.trans len
    omega
  have bytes : keyBytes { u with inputs := [] } = key.take 8 := keyBytes_of_setKey rfl rfl len
  have loaded : step u = .next (loadMasterKey (deriveMasterKey key) { u with inputs := [] }) := by
    rw [step_ldkeyLine (rest := []) rfl, execLdkey_of_keylen_ne_zero (s := { u with inputs := [] }) idle loads, bytes,
      deriveMasterKey_take_eight]
  refine ⟨_, drive_eq_some ((run_add (n := 1) set).trans (run_succ loaded)), idle, rfl, rfl, rfl, rfl⟩

/-- Settles O55: SETKEY, then LDKEY with KEYLEN not 0. -/
theorem constructLoadsTheKeyOrRejectsEmptyInput : Obligations.ConstructLoadsTheKeyOrRejectsEmptyInput := by
  unfold Obligations.ConstructLoadsTheKeyOrRejectsEmptyInput
  intro text key s
  exact ⟨fun empty => if_pos empty, fun ht hk => ⟨if_neg (not_or.2 ⟨ht, hk⟩), drive_constructLines hk⟩⟩

/-! ### One chunk (46_host_orchestrator.md R232) -/

/-- Any number of turns, then POLL: the operation has completed, and the steps are bounded. -/
theorem InFlight.run_turns_poll {b : Block} {k gap : Nat} (h : InFlight b s)
    (turns : TurnsThen k (.poll gap :: rest) s) :
    ∃ n u, n ≤ k + (33 + gap) ∧ run n s = .next u ∧ u.inputs = rest ∧ Completed b u ∧ SameOperands s u := by
  by_cases enough : 16 ≤ s.round.toNat + k
  · obtain ⟨t, ht, done, waiting, operands⟩ := h.run_turns_completes turns enough
    refine ⟨k + 1, respond (statusWord t) { t with inputs := rest }, by omega, ?_, rfl, ?_, ?_⟩
    · rw [run_add ht, run_succ (step_poll_of_idle waiting done.busy)]
      rfl
    · exact done.congr (sameEngine_of_lists t rest _)
    · exact operands.trans (sameOperands_of_lists t rest _)
  · obtain ⟨t, ht, flight, -, waiting, operands, -⟩ := h.run_turns turns (by omega)
    obtain ⟨n, u, -, bound, hu, waiting', done, operands', -⟩ := flight.run_poll waiting
    exact ⟨k + n, u, by omega, (run_add ht).trans hu, waiting', done, operands.trans operands'⟩

/-- The accesses of one chunk, run on an idle core with a key: DOUT has been read, and it is the chunk's result. -/
theorem run_chunkLines (d : Direction) (turns gap : Nat) (b : Block) (idle : s.busy = false) (key : s.keyValid = true) :
    ∃ u vs, run (chunkFuel turns gap) { s with inputs := chunkLines d turns gap b } = .next u ∧
      u.responses = u.dout1 :: u.dout0 :: vs ∧ Completed b u ∧ u.masterKey = s.masterKey ∧ u.keyValid = s.keyValid ∧
      u.dir = d ∧ u.build = s.build := by
  let waiting : List Input := List.replicate turns .core ++ .poll gap :: getBlkLines
  let set : State := { s with
    din0 := firstHalf b, din1 := secondHalf b, inputs := cipherLine d :: waiting }
  have lines : chunkLines d turns gap b = setBlkLines (firstHalf b) (secondHalf b) ++ cipherLine d :: waiting := by
    simp [chunkLines, waiting]
  have written : run 2 { s with inputs := chunkLines d turns gap b } = .next set := by
    rw [lines, run_setBlkLines rfl]
  let accepted : State := accept d { set with inputs := waiting }
  have started : step set = .next accepted := by
    rw [step_cipherLine rfl]
    exact startBlock_of_key d idle key
  have flight : InFlight b accepted := by
    have block : inputBlock { set with inputs := waiting } = b := append_halves b
    exact block ▸ inFlight_accept d { set with inputs := waiting }
  obtain ⟨n, t, bound, ht, rest, done, operands⟩ := flight.run_turns_poll (k := turns) (.inl rfl)
  have read := run_getBlkLines (rest := []) (rest.trans (List.append_nil _).symm)
  have total : run (2 + (1 + (n + 2))) { s with inputs := chunkLines d turns gap b } = _ :=
    (run_add written).trans ((run_add (run_succ started : run 1 set = .next accepted)).trans ((run_add ht).trans read))
  have fuel : 2 + (1 + (n + 2)) ≤ chunkFuel turns gap := by rw [chunkFuel]; omega
  exact ⟨_, t.responses, run_of_idle total fuel rfl done.busy, rfl, done.congr (sameEngine_of_lists t [] _),
    operands.masterKey, operands.keyValid, operands.dir, operands.build⟩

theorem cipherChunk_eq (d : Direction) (turns gap : Nat) (b : Block) (idle : s.busy = false) (key : s.keyValid = true) :
    ∃ t, cipherChunk d turns gap b s = some (t, processBlock s.build b s.masterKey d) ∧ t.busy = false ∧
      t.keyValid = true ∧ t.masterKey = s.masterKey ∧ t.build = s.build := by
  obtain ⟨u, vs, hu, read, done, mk, valid, dir, build⟩ := run_chunkLines d turns gap b idle key
  have output : u.dout0 ++ u.dout1 = processBlock s.build b s.masterKey d := by
    rw [← build, ← mk, ← dir]
    exact done.output
  refine ⟨u, ?_, done.busy, valid.trans key, mk, build⟩
  simp only [cipherChunk, drive_eq_some hu, read, output]

/-- Settles O57: the accesses of the chunk within the fuel for it. -/
theorem chunkThroughTheCoreIsProcessBlock : Obligations.ChunkThroughTheCoreIsProcessBlock := by
  unfold Obligations.ChunkThroughTheCoreIsProcessBlock
  exact fun d turns gap b s idle key => cipherChunk_eq d turns gap b idle key

/-! ### All chunks, and the round trip (46_host_orchestrator.md R232 to R234) -/

theorem cipherChunks_eq (d : Direction) (turns gap : Nat) (bs : List Block) (idle : s.busy = false)
    (key : s.keyValid = true) :
    ∃ t, cipherChunks d turns gap bs s =
      some (t, (bs.map (processBlock s.build · s.masterKey d)).flatMap bytesOfBlock) := by
  induction bs generalizing s with
  | nil => exact ⟨s, rfl⟩
  | cons b bs ih =>
    obtain ⟨t, chunk, idle', key', mk, build⟩ := cipherChunk_eq d turns gap b idle key
    obtain ⟨u, chunks⟩ := ih idle' key'
    refine ⟨u, ?_⟩
    simp only [cipherChunks, chunk, chunks, mk, build, Option.bind_eq_bind, Option.bind_some, List.map_cons,
      List.flatMap_cons]

/-- What a call of the orchestrator on an idle core gives: every chunk of the padded text through the block function. -/
theorem orchestrate_eq (d : Direction) (turns gap : Nat) {text key : List Byte} {bs : List Block} (ht : text ≠ [])
    (hk : key ≠ []) (idle : s.busy = false) (chunks : pad text = bs.flatMap bytesOfBlock) :
    orchestrate d turns gap text key s =
      .ok (some ((bs.map (processBlock s.build · (deriveMasterKey key) d)).flatMap bytesOfBlock)) := by
  obtain ⟨t, loaded, idle', valid, mk, build, -⟩ := drive_constructLines hk idle
  obtain ⟨u, out⟩ := cipherChunks_eq d turns gap bs idle' valid
  have handle : construct text key = .ok (constructLines key, pad text) := if_neg (not_or.2 ⟨ht, hk⟩)
  rw [orchestrate, handle, Except.map]
  simp only [loaded, chunks, blocksOf_flatMap_bytesOfBlock, out, mk, build, Option.bind_eq_bind, Option.bind_some]

/-- Settles O58: the ciphertext is whole blocks, so it is not padded, and each block is decrypted to the one it came
from. -/
theorem orchestratorRoundTripReturnsThePaddedText : Obligations.OrchestratorRoundTripReturnsThePaddedText := by
  unfold Obligations.OrchestratorRoundTripReturnsThePaddedText
  intro text key turns gap turns' gap' s ht hk idle
  obtain ⟨n, length⟩ := Nat.dvd_of_mod_eq_zero (length_pad_mod text)
  obtain ⟨bs, chunks⟩ := exists_flatMap_bytesOfBlock length
  let mk := deriveMasterKey key
  let encrypted := bs.map (processBlock s.build · mk .forward)
  have decrypted : encrypted.map (processBlock s.build · mk .reverse) = bs := by
    rw [List.map_map]
    exact List.map_id'' (fun b => (decryptionInvertsEncryption s.build b mk).1) bs
  have sameLength : (encrypted.flatMap bytesOfBlock).length = (pad text).length := by
    rw [chunks, length_flatMap_bytesOfBlock, length_flatMap_bytesOfBlock, List.length_map]
  have aligned : pad (encrypted.flatMap bytesOfBlock) = encrypted.flatMap bytesOfBlock :=
    pad_of_aligned (sameLength ▸ length_pad_mod text)
  have notEmpty : encrypted.flatMap bytesOfBlock ≠ [] := by
    rw [← List.length_pos_iff, sameLength, length_pad]
    exact Nat.add_pos_left (List.length_pos_iff.2 ht) _
  refine ⟨_, orchestrate_eq .forward turns gap ht hk idle chunks, sameLength, ?_, pad_of_aligned⟩
  rw [orchestrate_eq .reverse turns' gap' notEmpty hk idle aligned, decrypted, chunks]

end Sys2Proof.Machine
